-- ==== Sys2Proof/Word.lean ====
section
/-! DEFINITION. The words of the part's frames and of its texts. Everything the manual counts or numbers is a `Nat`;
bit vectors hold only what it treats as bytes, as character codes or as a set of bits. -/

namespace Sys2Proof

/-- One byte of a frame (R191, R196). -/
abbrev Byte := BitVec 8

/-- One 16-bit character code (00_scope, Conventions: Text). -/
abbrev Char16 := BitVec 16

/-- Text is a string of 16-bit character codes, which the part never interprets (00_scope). -/
abbrev Text := List Char16

/-- The byte of a whole number, its low eight bits. -/
def byte (n : Nat) : Byte := BitVec.ofNat 8 n

end Sys2Proof
end

