-- ==== Sys2Proof/Config.lean ====
section
/-! DEFINITION. What the part fixes: capacities (00_scope, R1), filter times and counts, and the values the manual leaves
open, which are opaque constants that no proof can see into. -/

namespace Sys2Proof

/-- Capacities (00_scope, "The setting"; R1). -/
abbrev Config.nodes : Nat := 192
abbrev Config.segments : Nat := 384
abbrev Config.targets : Nat := 40
abbrev Config.stations : Nat := 16
abbrev Config.entrances : Nat := 32
abbrev Config.entries : Nat := 256
abbrev Config.cabins : Nat := 512
abbrev Config.screens : Nat := 48
abbrev Config.banks : Nat := 4
abbrev Config.lamps : Nat := 16

/-- The largest payload of a command-port frame (R191). -/
abbrev Config.maxPayload : Nat := 200

/-- What the request buffer stores of one select (R179). -/
abbrev Config.requestBufferBytes : Nat := 203

/-- Ticks of 64 Hz after which a blocked beam puts its decoder in FAULT, 30 s (R102). -/
abbrev Config.stuckTicks : Nat := 1920

/-- Ticks of 64 Hz with both beams clear after which a decoder leaves FAULT, 2 s (R102). -/
abbrev Config.clearingTicks : Nat := 128

/-- The last voyage minute (R64). -/
abbrev Config.lastMinute : Nat := 143999

/-- Reference periods of one tick of each tap, and of 0.5 s (R63, R172). -/
abbrev Config.periods64 : Nat := 512
abbrev Config.periods16 : Nat := 2048
abbrev Config.periods1 : Nat := 32768
abbrev Config.periodsHalfSecond : Nat := 16384

/-- The most refreshing tags (R171). -/
abbrev Config.maxRefreshing : Nat := 8

/-- FREE VALUE (log 10). The text of built-in phrase `p` of bank `b`, in that bank's language (R149 names the phrases and
does not give the ROM's texts). -/
opaque Config.romText (b p : Nat) : Text

/-- FREE VALUE (log 11). How READ TAG LINK carries a time of the refresh record (R178; R190 gives no form for it). -/
opaque Config.linkTime (t : Nat) : BitVec 24

/-- FREE VALUE (log 12). The bank of the reply to a kiosk whose screen record cannot be read when its query is taken; applied
to the count `State.freeCount`. -/
opaque Config.kioskBank (k : Nat) : Fin 4

/-- FREE VALUE (log 12). The node of the reply to a kiosk that the reference index no longer holds; applied to the count
`State.freeCount`. -/
opaque Config.kioskNode (k : Nat) : Fin 192

end Sys2Proof
end

