-- ==== Sys2Proof/Syntax.lean ====
section
/-! DEFINITION. The commands: one constructor of `Instr` for each row of spec/opcode_table.json, with its operands. A host
request carries its fields as R190 decodes them, each a raw number of its form, so that a value outside its range can be
sent and is refused by the owner's own check; a payload that does not decode is `Fields.malformed`. -/

namespace Sys2Proof

/-! ### The enumerations of the manual, each in the order in which it first gives them (R190). -/

/-- The record kinds in store order (R2, R190). -/
inductive Kind where
  | node | segment | target | station | entrance | entry | cabin | screen | phrase
  deriving DecidableEq, Repr

/-- The kind byte of a record name (R190). -/
def Kind.code : Kind → Nat
  | .node => 0
  | .segment => 1
  | .target => 2
  | .station => 3
  | .entrance => 4
  | .entry => 5
  | .cabin => 6
  | .screen => 7
  | .phrase => 8

/-- The segment kinds (R23). -/
inductive SegKind where
  | corridor | openDeck | ramp | stair | lift
  deriving DecidableEq, Repr

/-- The directions of a segment (R23). -/
inductive Direction where
  | both | aToB | bToA
  deriving DecidableEq, Repr

/-- The availabilities of a segment (R23, R28). -/
inductive Availability where
  | openAll | closed | musterOnly | normalOnly
  deriving DecidableEq, Repr

/-- The ten arrow codes (R23). -/
inductive Arrow where
  | ahead | aheadRight | right | backRight | back | backLeft | left | aheadLeft | upStairs | downStairs
  deriving DecidableEq, Repr

/-- The target kinds; STATION is the kind of targets 0..15, which no request can give (R24). -/
inductive TargetKind where
  | venue | service | station
  deriving DecidableEq, Repr

/-- The audiences of a programme entry (R74). -/
inductive Audience where
  | all | adult | family | youth
  deriving DecidableEq, Repr

/-- The service states of a cabin (R119). -/
inductive Service where
  | none | privacy | makeUp
  deriving DecidableEq, Repr

/-- The screen kinds (R146). -/
inductive ScreenKind where
  | wall | kiosk
  deriving DecidableEq, Repr

/-- The programme filters of a screen (R146). -/
inductive ProgFilter where
  | ownDeck | all | none
  deriving DecidableEq, Repr

/-! ### Operands of the host requests. -/

/-- A request's fields as its payload decodes, or a payload that does not decode as the request's fields (R190). -/
inductive Fields (α : Type) where
  | fields (a : α)
  | malformed
  deriving DecidableEq, Repr

/-- A record name: kind byte and two index bytes (R190). -/
structure RecordName where
  kind : Nat
  index : Nat
  deriving DecidableEq, Repr

/-- A slot of the request's kind, with an optional expected revision (R11). -/
structure SlotArg where
  index : Nat
  rev : Option Nat
  deriving DecidableEq, Repr

/-- PUT NODE (R22). -/
structure PutNode where
  index : Nat
  rev : Option Nat
  deck : Nat
  deriving DecidableEq, Repr

/-- PUT SEGMENT (R23). The enumerations are raw bytes. -/
structure PutSegment where
  index : Nat
  rev : Option Nat
  endA : Nat
  endB : Nat
  length : Nat
  kind : Nat
  direction : Nat
  availability : Nat
  arrowA : Nat
  arrowB : Nat
  deriving DecidableEq, Repr

/-- SET SEGMENT STATE (R33). -/
structure SetSegmentState where
  index : Nat
  rev : Option Nat
  availability : Nat
  deriving DecidableEq, Repr

/-- PUT TARGET (R24). -/
structure PutTarget where
  index : Nat
  rev : Option Nat
  node : Nat
  phrase : Nat
  kind : Nat
  deriving DecidableEq, Repr

/-- LOOK UP ROUTE (R59). -/
structure LookUp where
  target : Nat
  node : Nat
  deriving DecidableEq, Repr

/-- SET CLOCK (R67). -/
structure SetClock where
  day : Nat
  minute : Nat
  second : Nat
  deriving DecidableEq, Repr

/-- SHIFT CLOCK: direction byte and amount in minutes (R68). -/
structure ShiftClock where
  direction : Nat
  amount : Nat
  deriving DecidableEq, Repr

/-- ADD ENTRY: every stored field but the cancellation minute (R79). -/
structure AddEntry where
  rev : Option Nat
  title : Text
  venue : Option Nat
  start : Nat
  duration : Nat
  lead : Nat
  audience : Nat
  highlight : Nat
  deriving DecidableEq, Repr

/-- CHANGE ENTRY: the fields its mask names (R82, R190); a venue may be named as absent. -/
structure ChangeEntry where
  index : Nat
  rev : Option Nat
  title : Option Text
  venue : Option (Option Nat)
  start : Option Nat
  duration : Option Nat
  lead : Option Nat
  audience : Option Nat
  highlight : Option Nat
  deriving DecidableEq, Repr

/-- LIST ENTRIES: starting minute and optional starting handle (R89). -/
structure ListEntries where
  minute : Nat
  handle : Option Nat
  deriving DecidableEq, Repr

/-- PUT STATION (R94). -/
structure PutStation where
  index : Nat
  rev : Option Nat
  node : Nat
  capacity : Nat
  nearFull : Nat
  overflow : Option Nat
  lamp : Option Nat
  phrase : Nat
  deriving DecidableEq, Repr

/-- PUT ENTRANCE (R96). -/
structure PutEntrance where
  index : Nat
  rev : Option Nat
  station : Option Nat
  filter : Nat
  orientation : Nat
  deriving DecidableEq, Repr

/-- SET HEAD COUNT (R105). -/
structure SetHeadCount where
  station : Nat
  count : Nat
  deriving DecidableEq, Repr

/-- A greeting as a request gives it: text and optional expiry; count 0 names it as absent (R119, R190). -/
structure GreetingArg where
  text : Text
  expiry : Option Nat
  deriving DecidableEq, Repr

/-- PUT CABIN (R121); an occupant line of no character is absent (R190). -/
structure PutCabin where
  index : Nat
  rev : Option Nat
  label : Text
  node : Nat
  station : Nat
  berths : Nat
  assist : Nat
  bank : Nat
  service : Nat
  occupant : Text
  greeting : GreetingArg
  deriving DecidableEq, Repr

/-- CHANGE CABIN: the fields its mask names (R122, R190). -/
structure ChangeCabin where
  index : Nat
  rev : Option Nat
  node : Option Nat
  station : Option Nat
  berths : Option Nat
  assist : Option Nat
  bank : Option Nat
  service : Option Nat
  occupant : Option Text
  greeting : Option GreetingArg
  deriving DecidableEq, Repr

/-- A CHANGE CABIN as its payload decodes; of a payload that does not decode, whether its mask names a field of the cabin roster
group, by which R143 judges it before the refusal of R190 (log 13). -/
inductive CabinFields where
  | fields (a : ChangeCabin)
  | malformed (roster : Bool)
  deriving DecidableEq, Repr

/-- SET SERVICE (R126). -/
structure SetService where
  index : Nat
  rev : Option Nat
  service : Nat
  deriving DecidableEq, Repr

/-- GET CABIN, with its part byte where one is carried (R192). -/
structure GetCabin where
  index : Nat
  part : Option Nat
  deriving DecidableEq, Repr

/-- PUT SCREEN (R146). -/
structure PutScreen where
  index : Nat
  rev : Option Nat
  node : Nat
  kind : Nat
  bank : Nat
  targets : List Nat
  filter : Nat
  lines : Nat
  station : Option Nat
  beacon : Nat
  deriving DecidableEq, Repr

/-- READ SCREEN CONTENT, with its first line where it is not absent (R192). -/
structure ReadContent where
  index : Nat
  first : Option Nat
  deriving DecidableEq, Repr

/-- PUT PHRASE (R150). -/
structure PutPhrase where
  bank : Nat
  phrase : Nat
  rev : Option Nat
  text : Text
  deriving DecidableEq, Repr

/-- GET PHRASE (R150). -/
structure PhraseName where
  bank : Nat
  phrase : Nat
  deriving DecidableEq, Repr

/-- On which side of the moment at which the response being worked becomes READY a select falls (R181, R182, log 2). -/
inductive PortMoment where
  | duringWork
  | afterWork
  deriving DecidableEq, Repr

/-! ### The commands. -/

/-- The 120 steps of spec/opcode_table.json, in the table's order. -/
inductive Instr where
  | powerOnReset
  | pinReset
  | fetch (moment : PortMoment)
  | stoppedFrame (bytes : List Byte)
  | discardedRequest
  | readSlot (a : Fields RecordName)
  | listDamage (a : Fields RecordName)
  | readStoreHealth
  | clearStoreAlert
  | sweepStore
  | sweepRead
  | sweepEnds
  | correctionWriteBack (word : Nat)
  | putNode (a : Fields PutNode)
  | removeNode (a : Fields SlotArg)
  | getNode (a : Fields Nat)
  | putSegment (a : Fields PutSegment)
  | removeSegment (a : Fields SlotArg)
  | setSegmentState (a : Fields SetSegmentState)
  | getSegment (a : Fields Nat)
  | putTarget (a : Fields PutTarget)
  | removeTarget (a : Fields SlotArg)
  | getTarget (a : Fields Nat)
  | readReferences (a : Fields RecordName)
  | lockTopology
  | computationCompletes
  | lookUpRoute (a : Fields LookUp)
  | recomputeAll
  | readRouteEngine
  | tick64Hz (beams : BitVec 64) (alarm : Bool)
  | tick16Hz
  | tick1Hz
  | minuteBoundary
  | clockReachesLimit
  | setClock (a : Fields SetClock)
  | shiftClock (a : Fields ShiftClock)
  | readClock
  | addEntry (a : Fields AddEntry)
  | changeEntry (a : Fields ChangeEntry)
  | cancelEntry (a : Fields SlotArg)
  | retireEntry (a : Fields SlotArg)
  | setLinger (a : Fields Nat)
  | getEntry (a : Fields Nat)
  | listEntries (a : Fields ListEntries)
  | readProgramme
  | putStation (a : Fields PutStation)
  | removeStation (a : Fields SlotArg)
  | getStation (a : Fields Nat)
  | readStation (a : Fields Nat)
  | putEntrance (a : Fields PutEntrance)
  | removeEntrance (a : Fields SlotArg)
  | getEntrance (a : Fields Nat)
  | readEntrance (a : Fields Nat)
  | secure (a : Fields Nat)
  | markUnsafe (a : Fields Nat)
  | reopen (a : Fields Nat)
  | setHeadCount (a : Fields SetHeadCount)
  | readRoll (a : Fields Nat)
  | takenChange (entrance : Nat) (first second : Bool)
  | stuckBeamFault (entrance : Nat) (first second : Bool)
  | faultCleared (entrance : Nat) (first second : Bool)
  | lampPhaseTurn (line : Nat)
  | putCabin (a : Fields PutCabin)
  | changeCabin (a : CabinFields)
  | setService (a : Fields SetService)
  | removeCabin (a : Fields SlotArg)
  | getCabin (a : Fields GetCabin)
  | findCabin (a : Fields Text)
  | collectServiceChanges
  | startDrill
  | endDrill
  | startMuster
  | endMuster
  | readMode
  | takenAssertion
  | takenRelease
  | filterSettles
  | putScreen (a : Fields PutScreen)
  | removeScreen (a : Fields SlotArg)
  | getScreen (a : Fields Nat)
  | readScreenContent (a : Fields ReadContent)
  | putPhrase (a : Fields PutPhrase)
  | getPhrase (a : Fields PhraseName)
  | send
  | ack (address version : Nat)
  | sendNoAnswer
  | probeDue (address : Nat)
  | probe
  | probeNoAnswer
  | kioskPollDue (address : Nat)
  | kioskPoll
  | nothing (address : Nat)
  | routeQuery (address target : Nat)
  | programmeQuery (address minute audience : Nat)
  | kioskPollNoAnswer
  | reply
  | replyNoAnswer
  | tagSend
  | accepted (address : Nat)
  | busy (address : Nat)
  | tagSendNoAnswer
  | donePollDue (address : Nat) (together : Bool)
  | donePoll
  | done (address button : Nat)
  | refreshing (address button : Nat)
  | donePollNoAnswer
  | refreshTimeout (address : Nat)
  | rotationPollDue
  | statusPoll
  | status (address button : Nat)
  | statusPollNoAnswer
  | readScreenLink (a : Fields Nat)
  | readTagLink (a : Fields Nat)
  | readLinkQueues
  | readStatus
  | clearNotices (a : Fields Nat)
  | setNoticeEnables (a : Fields Nat)
  | setMasterEnable (a : Fields Nat)
  | restart
  | computationSegmentRead (segment : Nat)
  deriving DecidableEq, Repr

end Sys2Proof
end

