-- ==== Sys2Proof/Machine/Tables.lean ====
section
/-! DEFINITION. Sparse data by number: a list of (key, value) pairs in one canonical form, keys strictly rising and no value
equal to what an unlisted key reads as, so that equal contents are equal lists. -/

namespace Sys2Proof.Machine

/-- A table keyed by number. What an unlisted key reads as is an argument of each operation. -/
abbrev Table (α : Type) := List (Nat × α)

/-- The value at a key; `d` where the key is not listed. -/
def Table.get {α : Type} (d : α) : Table α → Nat → α
  | [], _ => d
  | (j, w) :: rest, k => if k = j then w else Table.get d rest k

/-- Writes one key; writing `d` removes the entry. -/
def Table.set {α : Type} [DecidableEq α] (d : α) : Table α → Nat → α → Table α
  | [], k, v => if v = d then [] else [(k, v)]
  | (j, w) :: rest, k, v =>
    if k < j then (if v = d then (j, w) :: rest else (k, v) :: (j, w) :: rest)
    else if k = j then (if v = d then rest else (k, v) :: rest)
    else (j, w) :: Table.set d rest k v

/-- Every key is above `k`, keys rise strictly, and no value is `d`. -/
def Table.wfAbove {α : Type} [DecidableEq α] (d : α) : Nat → Table α → Bool
  | _, [] => true
  | k, (j, w) :: rest => k < j && w ≠ d && Table.wfAbove d j rest

/-- The canonical form of a table. -/
def Table.wf {α : Type} [DecidableEq α] (d : α) : Table α → Bool
  | [] => true
  | (j, w) :: rest => w ≠ d && Table.wfAbove d j rest

/-- Writes the same value at each of `keys`. -/
def Table.setAll {α : Type} [DecidableEq α] (d : α) (t : Table α) (keys : List Nat) (v : α) : Table α :=
  keys.foldl (fun t k => Table.set d t k v) t

end Sys2Proof.Machine
end

