-- ==== Sys2Proof/Machine/State.lean ====
section
/-! DEFINITION. The state of the part as plain data: one sub-structure for each of its blocks (00_scope, Block Overview), each
field's default its value after a power-on reset. An optional field that the manual calls absent is `none`. -/

namespace Sys2Proof.Machine

/-! ### The record store (01). -/

/-- A record slot or a route cell (R1). -/
inductive Place where
  | slot (kind : Kind) (index : Nat)
  | cell (target node : Nat)
  deriving DecidableEq, Repr

/-- What the slot directory holds of a slot (R1). -/
structure DirEntry where
  present : Bool := false
  rev : Nat := 0
  deriving DecidableEq, Repr

/-- A node record (R22). -/
structure NodeRec where
  deck : Nat := 0
  deriving DecidableEq, Repr

/-- A segment record (R23). -/
structure SegRec where
  endA : Nat := 0
  endB : Nat := 0
  length : Nat := 0
  kind : SegKind := .corridor
  direction : Direction := .both
  availability : Availability := .openAll
  arrowA : Arrow := .ahead
  arrowB : Arrow := .ahead
  deriving DecidableEq, Repr

/-- A target record (R24). -/
structure TargetRec where
  node : Nat := 0
  phrase : Nat := 0
  kind : TargetKind := .venue
  deriving DecidableEq, Repr

/-- A station record (R94). -/
structure StationRec where
  node : Nat := 0
  capacity : Nat := 0
  nearFull : Nat := 0
  overflow : Option Nat := none
  lamp : Option Nat := none
  phrase : Nat := 0
  deriving DecidableEq, Repr

/-- An entrance record (R96); `filter` is the number of ticks, `swapped` the orientation SWAPPED. -/
structure EntranceRec where
  station : Option Nat := none
  filter : Nat := 0
  swapped : Bool := false
  deriving DecidableEq, Repr

/-- A programme entry record (R74). -/
structure EntryRec where
  title : Text := []
  venue : Option Nat := none
  start : Nat := 0
  duration : Nat := 0
  lead : Nat := 0
  audience : Audience := .all
  highlight : Bool := false
  cancelled : Option Nat := none
  deriving DecidableEq, Repr

/-- A greeting: its text and its expiry, a voyage minute or absent (R119). -/
structure Greeting where
  text : Text
  expiry : Option Nat
  deriving DecidableEq, Repr

/-- A cabin record (R119). -/
structure CabinRec where
  label : Text := []
  node : Nat := 0
  station : Nat := 0
  berths : Nat := 0
  assist : Bool := false
  bank : Nat := 0
  service : Service := .none
  occupant : Option Text := none
  greeting : Option Greeting := none
  deriving DecidableEq, Repr

/-- A screen record (R146). -/
structure ScreenRec where
  node : Nat := 0
  kind : ScreenKind := .wall
  bank : Nat := 0
  targets : List Nat := []
  filter : ProgFilter := .ownDeck
  lines : Nat := 0
  station : Option Nat := none
  beacon : Bool := false
  deriving DecidableEq, Repr

/-- A route cell (R42): both absent, or a distance with a next segment, or distance 0 at the target's node. -/
structure Cell where
  dist : Option Nat := none
  next : Option Nat := none
  deriving DecidableEq, Repr

/-- The class in which a read of a RAM word finds it (R4). -/
inductive WordError where
  | clean | single | double
  deriving DecidableEq, Repr

/-- A correction that a read has made and whose word is not yet written back; `rewritten` once a change or another write-back
has rewritten the word (R5). -/
structure WriteBack where
  word : Nat
  rewritten : Bool
  deriving DecidableEq, Repr

/-- A value of the ship clock (R64). -/
structure ShipTime where
  day : Nat
  minute : Nat
  second : Nat
  deriving DecidableEq, Repr

/-- The running sweep: the slot or cell reached, whether the last cell has been passed, and its tallies (R13, R17). -/
structure Sweep where
  position : Place := .slot .node 0
  passed : Bool := false
  corrections : Nat := 0
  damaged : Nat := 0
  deriving DecidableEq, Repr

/-- The last-sweep result (R18). -/
structure LastSweep where
  endTime : Option ShipTime
  corrections : Nat
  damaged : Nat
  deriving DecidableEq, Repr

/-- The record store: slot directory and damage map keyed by record name, records by index, cells by target and node, RAM
words by address, and the store-health record (R1 to R21). -/
structure Store where
  dir : Table DirEntry := []
  damage : Table Bool := []
  nodes : Table NodeRec := []
  segments : Table SegRec := []
  targets : Table TargetRec := []
  stations : Table StationRec := []
  entrances : Table EntranceRec := []
  entries : Table EntryRec := []
  cabins : Table CabinRec := []
  screens : Table ScreenRec := []
  phrases : Table Text := []
  cells : Table Cell := []
  ramErrors : Table WordError := []
  writeBacks : List WriteBack := []
  corrected : Nat := 0
  firstDamaged : Option Place := none
  alert : Bool := false
  sweep : Option Sweep := none
  lastSweep : Option LastSweep := none
  deriving DecidableEq, Repr

/-! ### The Graph Table (02). -/

/-- A segment's entry in the reference index (R25). -/
structure SegRef where
  endA : Nat
  endB : Nat
  length : Nat
  kind : SegKind
  direction : Direction
  arrowA : Arrow
  arrowB : Arrow
  deriving DecidableEq, Repr

/-- A target's entry (R25). -/
structure TargetRef where
  node : Nat
  kind : TargetKind
  deriving DecidableEq, Repr

/-- A screen's entry (R25). -/
structure ScreenRef where
  node : Nat
  targets : List Nat
  deriving DecidableEq, Repr

/-- A programme entry's entry: its venue, or absent (R25). -/
structure EntryRef where
  venue : Option Nat
  deriving DecidableEq, Repr

/-- The reference index, one optional entry per slot, and the topology lock (R25, R37). -/
structure Graph where
  refSegments : Table (Option SegRef) := []
  refTargets : Table (Option TargetRef) := []
  refStations : Table (Option Nat) := []
  refScreens : Table (Option ScreenRef) := []
  refCabins : Table (Option Nat) := []
  refEntries : Table (Option EntryRef) := []
  lock : Bool := false
  deriving DecidableEq, Repr

/-! ### The Route Engine (03). -/

/-- The state of a column (R43). -/
inductive ColState where
  | empty | valid | stale
  deriving DecidableEq, Repr

/-- A queued column with its joining order (R49). -/
structure QueuedCol where
  column : Nat
  order : Nat
  deriving DecidableEq, Repr

/-- The computation in flight: its column, its overtaken flag, and the segments it has read so far (R52). -/
structure Computation where
  column : Nat
  overtaken : Bool := false
  read : List Nat := []
  deriving DecidableEq, Repr

/-- The Route Engine's own state; the engine is IDLE when no computation is in flight (R43, R49, R52). -/
structure Routes where
  cols : Table ColState := []
  queue : List QueuedCol := []
  joinCount : Nat := 0
  engine : Option Computation := none
  deriving DecidableEq, Repr

/-! ### The time base and the ship clock (04). -/

/-- The ship clock (R64). -/
inductive Clock where
  | unset
  | running (t : ShipTime)
  | atLimit (t : ShipTime)
  deriving DecidableEq, Repr

/-- The reference periods counted at the 64 Hz tap since the reset (R63); whether a tick of the 16 Hz and of the 1 Hz tap has
fallen, on the last 64 Hz tick, that the users of the tap have still to take (log 35); and the clock. -/
structure TimeBase where
  refCount : Nat := 0
  due16 : Bool := false
  due1 : Bool := false
  clock : Clock := .unset
  deriving DecidableEq, Repr

/-! ### The Programme Table and Evaluator (05). -/

/-- The state of an entry (R75, R76). -/
inductive EntryState where
  | scheduled | soon | running | ended | cancelled
  deriving DecidableEq, Repr

/-- A row of the schedule (R75); `finish` is the end E. -/
structure ScheduleRow where
  state : EntryState
  since : Option Nat
  start : Nat
  finish : Nat
  lead : Nat
  cancelled : Option Nat
  capturePending : Bool
  deriving DecidableEq, Repr

/-- The schedule, a row for each PRESENT entry, and the linger (R75, R87). -/
structure Programme where
  schedule : Table (Option ScheduleRow) := []
  linger : Nat := 20
  deriving DecidableEq, Repr

/-! ### The Muster Unit (06). -/

/-- The state of a present station (R107). -/
inductive StationState where
  | standby | taking | nearFull | full | secured | notSafe
  deriving DecidableEq, Repr

/-- A captured time: not captured yet in this session, or captured, possibly absent (R73, R115). -/
inductive Capture where
  | notYet
  | taken (t : Option ShipTime)
  deriving DecidableEq, Repr

/-- What the unit copies from a station record (R94). -/
structure StationSettings where
  capacity : Nat
  nearFull : Nat
  overflow : Option Nat
  lamp : Option Nat
  deriving DecidableEq, Repr

/-- The live state of a station (R104, R107, R115). -/
structure StationLive where
  state : StationState := .standby
  head : Nat := 0
  unmatched : Nat := 0
  ambiguous : Nat := 0
  firstArrival : Capture := .notYet
  fullTime : Capture := .notYet
  deriving DecidableEq, Repr

/-- Where a station's passengers are sent, with the ASK CREW marker (R116). -/
structure Effective where
  station : Nat
  askCrew : Bool
  deriving DecidableEq, Repr

/-- A beam's filter: taken level (blocked) and hold count (R98). -/
structure Beam where
  blocked : Bool := false
  hold : Nat := 0
  deriving DecidableEq, Repr

/-- The nine states of an entrance decoder (R100). -/
inductive DecoderState where
  | idle | outer | inner | bothIn | bothOut | clearingIn | clearingOut | muddled | fault
  deriving DecidableEq, Repr

/-- An entrance decoder: its state, the stuck timers of its first and second beam input, its clearing timer (R100, R102). -/
structure Decoder where
  state : DecoderState := .idle
  stuckFirst : Nat := 0
  stuckSecond : Nat := 0
  clearing : Nat := 0
  deriving DecidableEq, Repr

/-- A cabin's entry in the roster (R106). -/
structure RosterEntry where
  station : Nat
  berths : Nat
  assist : Bool
  deriving DecidableEq, Repr

/-- The kind of a session (R112). -/
inductive SessionKind where
  | drill | muster
  deriving DecidableEq, Repr

/-- A row of the frozen roll (R114). -/
structure RollRow where
  state : StationState
  head : Nat
  expected : Nat
  assistance : Nat
  unmatched : Nat
  ambiguous : Nat
  firstArrival : Option ShipTime
  fullTime : Option ShipTime
  deriving DecidableEq, Repr

/-- The frozen roll: the session's kind and a row for each station present at its end (R114). -/
structure Roll where
  kind : SessionKind
  rows : Table (Option RollRow)
  deriving DecidableEq, Repr

/-- A lamp line's pattern generator (R117): the station that names the line, the pattern, whether the pattern still waits for
its first 16 Hz tick, phase (ON), down-counter, and the level of the line. -/
structure Lamp where
  owner : Option Nat := none
  onCount : Nat := 0
  offCount : Nat := 0
  fresh : Bool := false
  phaseOn : Bool := false
  counter : Nat := 0
  line : Bool := false
  deriving DecidableEq, Repr

/-- The Muster Unit's registers (06). Beams are keyed by input 0..63, decoders by entrance, lamps by line. -/
structure Muster where
  stationSettings : Table (Option StationSettings) := []
  stations : Table StationLive := []
  effective : Table (Option Effective) := []
  entranceSettings : Table (Option EntranceRec) := []
  beams : Table Beam := []
  decoders : Table Decoder := []
  roster : Table (Option RosterEntry) := []
  session : Option SessionKind := none
  roll : Option Roll := none
  lamps : Table Lamp := []
  deriving DecidableEq, Repr

/-! ### The Cabin Table (07). -/

/-- A cabin summary (R120). -/
structure Summary where
  service : Service
  bank : Nat
  expiry : Option Nat
  deriving DecidableEq, Repr

/-- An entry of the service-change list (R129). -/
structure ServiceChange where
  cabin : Nat
  service : Service
  deriving DecidableEq, Repr

/-- The Cabin Table's own state: summaries and the service-change list, oldest first (R120, R129). -/
structure CabinTable where
  summaries : Table (Option Summary) := []
  service : List ServiceChange := []
  deriving DecidableEq, Repr

/-! ### The Mode Controller (08). -/

/-- The operating mode (R134). -/
inductive Mode where
  | normal | drill | muster
  deriving DecidableEq, Repr

/-- The cause of the last mode change (R134). -/
inductive ModeCause where
  | reset | host | alarm | restart
  deriving DecidableEq, Repr

/-- The state of the alarm filter; the candidate of SETTLING is absent or asserted or not (R135, R136). -/
inductive FilterState where
  | settling (candidate : Option Bool)
  | released
  | asserted
  deriving DecidableEq, Repr

/-- The alarm filter with its hold count (R135). -/
structure AlarmFilter where
  state : FilterState := .settling none
  hold : Nat := 0
  deriving DecidableEq, Repr

/-- The Mode Controller's state (R134, R135). -/
structure ModeControl where
  mode : Mode := .normal
  changeCount : Nat := 0
  lastCause : ModeCause := .reset
  filter : AlarmFilter := {}
  deriving DecidableEq, Repr

/-! ### The Composer (09). -/

/-- The text a phrase item resolved to: the ROM's text of a bank, or a stored text (R150). -/
inductive PhraseText where
  | rom (bank : Nat)
  | stored (t : Text)
  deriving DecidableEq, Repr

/-- An item of a line (R151). -/
inductive Item where
  | phrase (number : Nat) (text : PhraseText)
  | text (t : Text)
  | number (n : Nat)
  | time (minute : Nat)
  | arrow (a : Arrow)
  | minutes (n : Nat)
  | letter (station : Nat)
  | held
  | beacon (onCount offCount : Nat)
  deriving DecidableEq, Repr

/-- A content frame: lines of items; the blank content has no line (R151). -/
abbrev Frame := List (List Item)

/-- A panel content record (R151). -/
structure PanelContent where
  content : Frame := []
  version : Nat := 0
  deriving DecidableEq, Repr

/-- The composed contents of the screens and of the tags (R151). -/
structure Composer where
  screens : Table PanelContent := []
  tags : Table PanelContent := []
  deriving DecidableEq, Repr

/-! ### The Panel Link (10). -/

/-- Presence and kind of a screen, as the Composer last told the channel (R162). -/
inductive ScreenPresence where
  | absent | wall | kiosk
  deriving DecidableEq, Repr

/-- A screen link record (R162). -/
structure ScreenLink where
  presence : ScreenPresence := .absent
  silent : Bool := false
  paused : Bool := false
  acked : Option Nat := some 0
  attempts : Nat := 0
  missedPolls : Nat := 0
  deriving DecidableEq, Repr

/-- What a reply to a kiosk holds (R167). -/
inductive ReplyBody where
  | refusedMuster
  | answer (lines : Frame)
  deriving DecidableEq, Repr

/-- The due reply (R167). -/
structure DueReply where
  screen : Nat
  body : ReplyBody
  deriving DecidableEq, Repr

/-- The transfer in flight on the screen channel (R164 to R167). -/
inductive ScreenTransfer where
  | send (screen version : Nat)
  | probe (screen version : Nat)
  | poll (screen : Nat)
  | reply (screen : Nat)
  deriving DecidableEq, Repr

/-- The body of a frame from the part to a panel (R196). -/
inductive PanelBody where
  | send (version : Nat) (content : Frame)
  | kioskPoll
  | reply (body : ReplyBody)
  | tagSend (version : Nat) (service : Service) (content : Frame)
  | donePoll
  | statusPoll
  deriving DecidableEq, Repr

/-- A frame from the part to a panel (R196). -/
structure PanelFrame where
  address : Nat
  body : PanelBody
  deriving DecidableEq, Repr

/-- The screen channel (R162 to R168). -/
structure ScreenChannel where
  links : Table ScreenLink := []
  sendQueue : List Nat := []
  silent : List Nat := []
  probeDue : List Nat := []
  kioskDue : List Nat := []
  kioskPtr : Nat := 0
  reply : Option DueReply := none
  transfer : Option ScreenTransfer := none
  lastFrame : Option PanelFrame := none
  deriving DecidableEq, Repr

/-- A tag's service (R169). -/
inductive TagService where
  | inService | silent | fault
  deriving DecidableEq, Repr

/-- A refresh record: the version sent, the time of ACCEPTED, the time the next DONE poll falls due (R169). The times are reference
counts as of a 64 Hz tick (log 44). -/
structure Refresh where
  version : Nat
  acceptedAt : Nat
  pollAt : Nat
  deriving DecidableEq, Repr

/-- A tag link record (R169). -/
structure TagLink where
  service : TagService := .inService
  shown : Nat := 0
  dirty : Bool := false
  missed : Nat := 0
  refresh : Option Refresh := none
  deriving DecidableEq, Repr

/-- The sweep of the tag channel: the walk pointer 0..512 and the sweep list (R175). -/
structure TagSweep where
  walk : Nat := 0
  list : List Nat := []
  deriving DecidableEq, Repr

/-- A DONE poll that has fallen due; polls that fell due together share `moment` (R174). -/
structure DueDonePoll where
  moment : Nat
  cabin : Nat
  deriving DecidableEq, Repr

/-- The transfer in flight on the tag channel (R171 to R173). -/
inductive TagTransfer where
  | send (cabin version : Nat)
  | donePoll (cabin : Nat)
  | statusPoll (cabin : Nat)
  deriving DecidableEq, Repr

/-- The tag channel (R169 to R176). -/
structure TagChannel where
  links : Table TagLink := []
  routine : List Nat := []
  suspended : Bool := false
  sweep : Option TagSweep := none
  doneDue : List DueDonePoll := []
  rotationPtr : Nat := 0
  rotationDue : Bool := false
  transfer : Option TagTransfer := none
  lastFrame : Option PanelFrame := none
  deriving DecidableEq, Repr

/-! ### The command port and the notice unit (11). -/

/-- The status words (R183, R195). -/
inductive Status where
  | ok | adjusted | check | length | unknown | notReady | range | absent | full | reference | revision | mode | locked
  | damaged | final | busy
  deriving DecidableEq, Repr

/-- A complete response (R181). -/
structure Response where
  status : Status
  code : Byte
  payload : List Byte
  discard : Bool := false
  deriving DecidableEq, Repr

/-- The response buffer (R181). WORKING holds the response of the request being worked, which the step that took the request
has made; it becomes READY later (log 2). -/
inductive ResponseBuffer where
  | empty
  | working (r : Response)
  | ready (r : Response)
  deriving DecidableEq, Repr

/-- The request buffer: the bytes stored of a select and the number that arrived (R179). -/
structure RequestBuffer where
  bytes : List Byte := []
  count : Nat := 0
  deriving DecidableEq, Repr

/-- The reset cause (R188). -/
inductive ResetCause where
  | powerOn | resetPin | restart
  deriving DecidableEq, Repr

/-- The notice sources in the order of R184. -/
inductive Notice where
  | mode | station | service | panel | store | routes | clock | entrance
  deriving DecidableEq, Repr

/-- What the part has shifted out in the last select: the idle value, throughout a request select, or a response frame, from the
byte after the FETCH code on (R179). -/
inductive SpiOut where
  | nothing
  | idle
  | frame (bytes : List Byte)
  deriving DecidableEq, Repr

/-- The command port and notice unit. A set of sources is one bit each, bit i for the i-th source (R193); SERVICE is not
latched, so its bit of `latched` stays clear (R184). -/
structure Port where
  requestBuffer : RequestBuffer := {}
  buffer : ResponseBuffer := .empty
  latched : BitVec 8 := 0#8
  enables : BitVec 8 := 0#8
  master : Bool := false
  resetCause : ResetCause := .powerOn
  spiOut : SpiOut := .nothing
  deriving DecidableEq, Repr

/-! ### The whole part. -/

/-- The state of the part: its blocks, the model's count of free values used (log 12), and the queue of waiting commands. -/
structure State where
  store : Store := {}
  graph : Graph := {}
  routes : Routes := {}
  time : TimeBase := {}
  prog : Programme := {}
  muster : Muster := {}
  cabinTable : CabinTable := {}
  mode : ModeControl := {}
  composer : Composer := {}
  scr : ScreenChannel := {}
  tag : TagChannel := {}
  port : Port := {}
  freeCount : Nat := 0
  pending : List Instr := []
  deriving DecidableEq, Repr

/-- The part right after a power-on reset (R21, R25, R37, R62, R63, R64, R93, R118, R133, R134, R136, R161, R162, R169, R181,
R184, R185, R188), with no command waiting. -/
def State.reset : State := {}

/-- The manual gives the part no way to stop: every wrong input is answered with a status word (R183). No step faults. -/
inductive Fault where
  deriving DecidableEq, Repr

/-- Why a step is refused. -/
inductive Refusal where
  /-- Raised by `exec`'s arm of a command that has no meaning yet; no arm raises it. Safe: the run stops. -/
  | notModelled (mnemonic : String)
  deriving DecidableEq, Repr

end Sys2Proof.Machine
end

