-- ==== Sys2Proof/Machine/Flags.lean ====
section
/-! DEFINITION. The notice flags, the ATTN line and the STORE ALERT line (R14, R184, R185). -/

namespace Sys2Proof.Machine

/-- The bit of a source in a set of sources: its place in the table of R184 (R193). -/
def Notice.bit : Notice → Nat
  | .mode => 0
  | .station => 1
  | .service => 2
  | .panel => 3
  | .store => 4
  | .routes => 5
  | .clock => 6
  | .entrance => 7

/-- The set that holds one source. -/
def Notice.flag (n : Notice) : BitVec 8 := BitVec.ofNat 8 (2 ^ n.bit)

/-- A latched flag becomes pending at its event and stays pending (R184). -/
def Port.raise (n : Notice) (p : Port) : Port := { p with latched := p.latched ||| n.flag }

/-- Sets a notice pending. -/
def State.notice (n : Notice) (s : State) : State := { s with port := s.port.raise n }

/-- The pending flags as the host reads them: SERVICE is pending exactly while the service-change list is not empty (R184). -/
def State.pendingFlags (s : State) : BitVec 8 :=
  (s.port.latched &&& ~~~Notice.service.flag) ||| (if s.cabinTable.service.isEmpty then 0#8 else Notice.service.flag)

/-- A source's pending flag. -/
def State.isPending (n : Notice) (s : State) : Bool := s.pendingFlags.getLsbD n.bit

/-- ATTN is asserted while the master enable is set and a source is both enabled and pending (R185). -/
def State.attn (s : State) : Bool := s.port.master && (s.pendingFlags &&& s.port.enables) ≠ 0#8

/-- The level of the ATTN pin: driven low while ATTN is asserted and high while it is released (R185). -/
def State.attnHigh (s : State) : Bool := !s.attn

/-- STORE ALERT is driven low while the alert is ASSERTED (R14). -/
def State.storeAlertLow (s : State) : Bool := s.store.alert

/-- The level of a station lamp line (R117). -/
def State.lampLine (s : State) (line : Nat) : Bool := (Table.get {} s.muster.lamps line).line

end Sys2Proof.Machine
end

