-- ==== Sys2Proof/WellFormed.lean ====
section
/-! DEFINITION. A command is well formed when each operand fits the form in which it reaches the part: the widths of R190 for
the fields of a request, those of R196 for a panel's answer, the capacities of 00_scope for the addresses of the part's own
steps. A value that fits its form and lies outside its range is well formed: its owner refuses it. -/

namespace Sys2Proof

/-- A whole number in one byte, two or three (R190). -/
def fits1 (n : Nat) : Bool := n < 256
def fits2 (n : Nat) : Bool := n < 65536
def fits3 (n : Nat) : Bool := n < 16777216

/-- An optional number: the all-ones value of its width stands for absent (R190). -/
def fitsOpt1 (n : Option Nat) : Bool := n.all (· < 255)
def fitsOpt2 (n : Option Nat) : Bool := n.all (· < 65535)
def fitsOpt3 (n : Option Nat) : Bool := n.all (· < 16777215)

/-- An expected revision is one byte (R190). -/
def fitsRev (r : Option Nat) : Bool := r.all (· < 256)

/-- A text's count is one byte (R190). -/
def fitsText (t : Text) : Bool := t.length < 256

/-- A greeting is a text and an optional voyage minute (R190). -/
def fitsGreeting (g : GreetingArg) : Bool := fitsText g.text && fitsOpt3 g.expiry

/-- The fields of a request satisfy `p`; a payload that does not decode has no field to check. -/
def Fields.all {α : Type} (p : α → Bool) : Fields α → Bool
  | .fields a => p a
  | .malformed => true

def SlotArg.fitsByte (a : SlotArg) : Bool := fits1 a.index && fitsRev a.rev
def SlotArg.fitsWord (a : SlotArg) : Bool := fits2 a.index && fitsRev a.rev
def RecordName.wf (a : RecordName) : Bool := fits1 a.kind && fits2 a.index
def PutNode.wf (a : PutNode) : Bool := fits1 a.index && fitsRev a.rev && fits1 a.deck

def PutSegment.wf (a : PutSegment) : Bool :=
  fits2 a.index && fitsRev a.rev && fits1 a.endA && fits1 a.endB && fits1 a.length && fits1 a.kind
    && fits1 a.direction && fits1 a.availability && fits1 a.arrowA && fits1 a.arrowB

def SetSegmentState.wf (a : SetSegmentState) : Bool := fits2 a.index && fitsRev a.rev && fits1 a.availability

def PutTarget.wf (a : PutTarget) : Bool :=
  fits1 a.index && fitsRev a.rev && fits1 a.node && fits1 a.phrase && fits1 a.kind

def LookUp.wf (a : LookUp) : Bool := fits1 a.target && fits1 a.node
def SetClock.wf (a : SetClock) : Bool := fits1 a.day && fits2 a.minute && fits1 a.second
def ShiftClock.wf (a : ShiftClock) : Bool := fits1 a.direction && fits1 a.amount

def AddEntry.wf (a : AddEntry) : Bool :=
  fitsRev a.rev && fitsText a.title && fitsOpt1 a.venue && fits3 a.start && fits2 a.duration && fits1 a.lead
    && fits1 a.audience && fits1 a.highlight

/-- A mask of 0 does not decode (R190), so a CHANGE names a field. -/
def ChangeEntry.namesField (a : ChangeEntry) : Bool :=
  a.title.isSome || a.venue.isSome || a.start.isSome || a.duration.isSome || a.lead.isSome || a.audience.isSome
    || a.highlight.isSome

def ChangeEntry.wf (a : ChangeEntry) : Bool :=
  fits1 a.index && fitsRev a.rev && a.title.all fitsText && a.venue.all fitsOpt1 && a.start.all fits3
    && a.duration.all fits2 && a.lead.all fits1 && a.audience.all fits1 && a.highlight.all fits1 && a.namesField

def ListEntries.wf (a : ListEntries) : Bool := fits3 a.minute && fitsOpt2 a.handle

def PutStation.wf (a : PutStation) : Bool :=
  fits1 a.index && fitsRev a.rev && fits1 a.node && fits2 a.capacity && fits1 a.nearFull && fitsOpt1 a.overflow
    && fitsOpt1 a.lamp && fits1 a.phrase

def PutEntrance.wf (a : PutEntrance) : Bool :=
  fits1 a.index && fitsRev a.rev && fitsOpt1 a.station && fits1 a.filter && fits1 a.orientation

def SetHeadCount.wf (a : SetHeadCount) : Bool := fits1 a.station && fits2 a.count

def PutCabin.wf (a : PutCabin) : Bool :=
  fits2 a.index && fitsRev a.rev && fitsText a.label && fits1 a.node && fits1 a.station && fits1 a.berths
    && fits1 a.assist && fits1 a.bank && fits1 a.service && fitsText a.occupant && fitsGreeting a.greeting

/-- A mask of 0 does not decode (R190), so a CHANGE names a field. -/
def ChangeCabin.namesField (a : ChangeCabin) : Bool :=
  a.node.isSome || a.station.isSome || a.berths.isSome || a.assist.isSome || a.bank.isSome || a.service.isSome
    || a.occupant.isSome || a.greeting.isSome

def ChangeCabin.wf (a : ChangeCabin) : Bool :=
  fits2 a.index && fitsRev a.rev && a.node.all fits1 && a.station.all fits1 && a.berths.all fits1 && a.assist.all fits1
    && a.bank.all fits1 && a.service.all fits1 && a.occupant.all fitsText && a.greeting.all fitsGreeting && a.namesField

/-- A payload that does not decode has no field to check. -/
def CabinFields.wf : CabinFields → Bool
  | .fields a => a.wf
  | .malformed _ => true

def SetService.wf (a : SetService) : Bool := fits2 a.index && fitsRev a.rev && fits1 a.service
def GetCabin.wf (a : GetCabin) : Bool := fits2 a.index && a.part.all fits1

def PutScreen.wf (a : PutScreen) : Bool :=
  fits1 a.index && fitsRev a.rev && fits1 a.node && fits1 a.kind && fits1 a.bank && decide (a.targets.length < 256)
    && a.targets.all fits1 && fits1 a.filter && fits1 a.lines && fitsOpt1 a.station && fits1 a.beacon

def ReadContent.wf (a : ReadContent) : Bool := fits1 a.index && fitsOpt1 a.first
def PutPhrase.wf (a : PutPhrase) : Bool := fits1 a.bank && fits1 a.phrase && fitsRev a.rev && fitsText a.text
def PhraseName.wf (a : PhraseName) : Bool := fits1 a.bank && fits1 a.phrase

/-- A stopped frame has a first byte, and that byte is not the FETCH code, 0xF0 (R179, R194). -/
def stoppedBytesWf (bytes : List Byte) : Bool :=
  match bytes with
  | [] => false
  | b :: _ => b != 0xF0#8

/-- The operands of a command fit the forms in which they reach the part. -/
def Instr.wf : Instr → Bool
  | .powerOnReset | .pinReset | .fetch _ | .discardedRequest => true
  | .stoppedFrame bytes => stoppedBytesWf bytes
  | .readSlot a | .listDamage a | .readReferences a => a.all RecordName.wf
  | .readStoreHealth | .clearStoreAlert | .sweepStore | .sweepRead | .sweepEnds => true
  | .correctionWriteBack w => w < 32072
  | .putNode a => a.all PutNode.wf
  | .removeNode a | .removeTarget a | .cancelEntry a | .retireEntry a | .removeStation a | .removeEntrance a
  | .removeScreen a => a.all SlotArg.fitsByte
  | .removeSegment a | .removeCabin a => a.all SlotArg.fitsWord
  | .getNode a | .getTarget a | .getEntry a | .getStation a | .readStation a | .getEntrance a | .readEntrance a
  | .secure a | .markUnsafe a | .reopen a | .readRoll a | .getScreen a | .readScreenLink a | .setLinger a
  | .clearNotices a | .setNoticeEnables a | .setMasterEnable a => a.all fits1
  | .getSegment a | .readTagLink a => a.all fits2
  | .putSegment a => a.all PutSegment.wf
  | .setSegmentState a => a.all SetSegmentState.wf
  | .putTarget a => a.all PutTarget.wf
  | .lockTopology | .computationCompletes | .recomputeAll | .readRouteEngine => true
  | .lookUpRoute a => a.all LookUp.wf
  | .tick64Hz _ _ | .tick16Hz | .tick1Hz | .minuteBoundary | .clockReachesLimit | .readClock => true
  | .setClock a => a.all SetClock.wf
  | .shiftClock a => a.all ShiftClock.wf
  | .addEntry a => a.all AddEntry.wf
  | .changeEntry a => a.all ChangeEntry.wf
  | .listEntries a => a.all ListEntries.wf
  | .readProgramme => true
  | .putStation a => a.all PutStation.wf
  | .putEntrance a => a.all PutEntrance.wf
  | .setHeadCount a => a.all SetHeadCount.wf
  | .takenChange k _ _ | .stuckBeamFault k _ _ | .faultCleared k _ _ => k < Config.entrances
  | .lampPhaseTurn l => l < Config.lamps
  | .putCabin a => a.all PutCabin.wf
  | .changeCabin a => a.wf
  | .setService a => a.all SetService.wf
  | .getCabin a => a.all GetCabin.wf
  | .findCabin a => a.all fitsText
  | .collectServiceChanges | .startDrill | .endDrill | .startMuster | .endMuster | .readMode => true
  | .takenAssertion | .takenRelease | .filterSettles => true
  | .putScreen a => a.all PutScreen.wf
  | .readScreenContent a => a.all ReadContent.wf
  | .putPhrase a => a.all PutPhrase.wf
  | .getPhrase a => a.all PhraseName.wf
  | .send | .sendNoAnswer | .probe | .probeNoAnswer | .kioskPoll | .kioskPollNoAnswer | .reply | .replyNoAnswer => true
  | .ack n v => fits2 n && fits2 v
  | .probeDue n | .kioskPollDue n => n < Config.screens
  | .nothing n => fits2 n
  | .routeQuery n t => fits2 n && fits1 t
  | .programmeQuery n m a => fits2 n && fits3 m && fits1 a
  | .tagSend | .tagSendNoAnswer | .donePoll | .donePollNoAnswer | .rotationPollDue | .statusPoll
  | .statusPollNoAnswer => true
  | .accepted n | .busy n => fits2 n
  | .donePollDue n _ | .refreshTimeout n => n < Config.cabins
  | .done n b | .refreshing n b | .status n b => fits2 n && fits1 b
  | .readLinkQueues | .readStatus | .restart => true
  | .computationSegmentRead s => s < Config.segments

end Sys2Proof
end

