-- ==== Sys2Proof/Decode.lean ====
section
/-! DEFINITION. From bytes to commands: the forms of R190, the request fields in the order of R193, the port's checks of R180
and R192, the command codes of R194, the panel answers of R196. spec/opcode_table.json gives its rows no bits, so
`decodeTableWord` answers none. -/

namespace Sys2Proof

/-- Reads a value off the front of a payload; none where the payload ends inside it or holds what its form does not. -/
abbrev Reader := StateT (List Byte) Option

/-- A whole number in one byte (R190). -/
def Reader.num1 : Reader Nat := fun bytes =>
  match bytes with
  | [] => none
  | b :: rest => some (b.toNat, rest)

/-- Big-endian in two bytes (R190). -/
def Reader.num2 : Reader Nat := do
  let a ← Reader.num1
  let b ← Reader.num1
  pure (a * 256 + b)

/-- Big-endian in three bytes (R190). -/
def Reader.num3 : Reader Nat := do
  let a ← Reader.num1
  let b ← Reader.num2
  pure (a * 65536 + b)

/-- The all-ones value of a width stands for absent (R190). -/
def optional (allOnes n : Nat) : Option Nat := if n = allOnes then none else some n

def Reader.opt1 : Reader (Option Nat) := do pure (optional 0xFF (← Reader.num1))
def Reader.opt2 : Reader (Option Nat) := do pure (optional 0xFFFF (← Reader.num2))
def Reader.opt3 : Reader (Option Nat) := do pure (optional 0xFFFFFF (← Reader.num3))

/-- An expected revision: flag 0, or flag 1 and one byte (R190). -/
def Reader.revision : Reader (Option Nat) := do
  match ← Reader.num1 with
  | 0 => pure none
  | 1 => pure (some (← Reader.num1))
  | _ => StateT.lift none

/-- A character code in one, two or three bytes (R190). -/
def Reader.char : Reader Char16 := do
  let lead ← Reader.num1
  if lead = 0 then pure (BitVec.ofNat 16 (← Reader.num2))
  else if lead < 0x80 then pure (BitVec.ofNat 16 lead)
  else pure (BitVec.ofNat 16 ((lead - 0x80) * 256 + (← Reader.num1)))

/-- `n` values one after the other. -/
def Reader.times {α : Type} (r : Reader α) : Nat → Reader (List α)
  | 0 => pure []
  | n + 1 => do
    let a ← r
    let rest ← Reader.times r n
    pure (a :: rest)

/-- A text: the number of characters, then the characters (R190). -/
def Reader.text : Reader Text := do Reader.times Reader.char (← Reader.num1)

/-- A list of one-byte elements (R190). -/
def Reader.list1 : Reader (List Nat) := do Reader.times Reader.num1 (← Reader.num1)

/-- A field that a mask names in its bit `i` (R190). -/
def Reader.named {α : Type} (mask i : Nat) (r : Reader α) : Reader (Option α) :=
  if mask.testBit i then do pure (some (← r)) else pure none

/-- A field that a request may carry at its end (R192). -/
def Reader.ifAny {α : Type} (r : Reader α) : Reader (Option α) := fun bytes =>
  match bytes with
  | [] => some (none, [])
  | _ => (r bytes).map fun p => (some p.1, p.2)

/-- The whole payload as a request's fields: bytes left over do not decode either (R190). -/
def Reader.payload {α : Type} (r : Reader α) (bytes : List Byte) : Fields α :=
  match r bytes with
  | some (a, []) => .fields a
  | _ => .malformed

/-! ### The fields of each request, in the order of R193. -/

def Reader.recordName : Reader RecordName := do pure { kind := ← Reader.num1, index := ← Reader.num2 }
def Reader.slot1 : Reader SlotArg := do pure { index := ← Reader.num1, rev := ← Reader.revision }
def Reader.slot2 : Reader SlotArg := do pure { index := ← Reader.num2, rev := ← Reader.revision }

def Reader.putNode : Reader PutNode := do
  pure { index := ← Reader.num1, rev := ← Reader.revision, deck := ← Reader.num1 }

def Reader.putSegment : Reader PutSegment := do
  pure { index := ← Reader.num2, rev := ← Reader.revision, endA := ← Reader.num1, endB := ← Reader.num1,
         length := ← Reader.num1, kind := ← Reader.num1, direction := ← Reader.num1, availability := ← Reader.num1,
         arrowA := ← Reader.num1, arrowB := ← Reader.num1 }

def Reader.setSegmentState : Reader SetSegmentState := do
  pure { index := ← Reader.num2, rev := ← Reader.revision, availability := ← Reader.num1 }

def Reader.putTarget : Reader PutTarget := do
  pure { index := ← Reader.num1, rev := ← Reader.revision, node := ← Reader.num1, phrase := ← Reader.num1,
         kind := ← Reader.num1 }

def Reader.lookUp : Reader LookUp := do pure { target := ← Reader.num1, node := ← Reader.num1 }

def Reader.setClock : Reader SetClock := do
  pure { day := ← Reader.num1, minute := ← Reader.num2, second := ← Reader.num1 }

def Reader.shiftClock : Reader ShiftClock := do pure { direction := ← Reader.num1, amount := ← Reader.num1 }

def Reader.addEntry : Reader AddEntry := do
  pure { rev := ← Reader.revision, title := ← Reader.text, venue := ← Reader.opt1, start := ← Reader.num3,
         duration := ← Reader.num2, lead := ← Reader.num1, audience := ← Reader.num1, highlight := ← Reader.num1 }

/-- A mask of 0 or with a bit beyond the request's fields does not decode (R190). -/
def Reader.mask (bits : Nat) : Reader Nat := do
  let m ← Reader.num1
  if m = 0 ∨ 2 ^ bits ≤ m then StateT.lift none else pure m

def Reader.changeEntry : Reader ChangeEntry := do
  let index ← Reader.num1
  let rev ← Reader.revision
  let m ← Reader.mask 7
  pure { index, rev, title := ← Reader.named m 0 Reader.text, venue := ← Reader.named m 1 Reader.opt1,
         start := ← Reader.named m 2 Reader.num3, duration := ← Reader.named m 3 Reader.num2,
         lead := ← Reader.named m 4 Reader.num1, audience := ← Reader.named m 5 Reader.num1,
         highlight := ← Reader.named m 6 Reader.num1 }

def Reader.listEntries : Reader ListEntries := do pure { minute := ← Reader.num3, handle := ← Reader.opt2 }

def Reader.putStation : Reader PutStation := do
  pure { index := ← Reader.num1, rev := ← Reader.revision, node := ← Reader.num1, capacity := ← Reader.num2,
         nearFull := ← Reader.num1, overflow := ← Reader.opt1, lamp := ← Reader.opt1, phrase := ← Reader.num1 }

def Reader.putEntrance : Reader PutEntrance := do
  pure { index := ← Reader.num1, rev := ← Reader.revision, station := ← Reader.opt1, filter := ← Reader.num1,
         orientation := ← Reader.num1 }

def Reader.setHeadCount : Reader SetHeadCount := do pure { station := ← Reader.num1, count := ← Reader.num2 }
def Reader.greeting : Reader GreetingArg := do pure { text := ← Reader.text, expiry := ← Reader.opt3 }

def Reader.putCabin : Reader PutCabin := do
  pure { index := ← Reader.num2, rev := ← Reader.revision, label := ← Reader.text, node := ← Reader.num1,
         station := ← Reader.num1, berths := ← Reader.num1, assist := ← Reader.num1, bank := ← Reader.num1,
         service := ← Reader.num1, occupant := ← Reader.text, greeting := ← Reader.greeting }

def Reader.changeCabin : Reader ChangeCabin := do
  let index ← Reader.num2
  let rev ← Reader.revision
  let m ← Reader.mask 8
  pure { index, rev, node := ← Reader.named m 0 Reader.num1, station := ← Reader.named m 1 Reader.num1,
         berths := ← Reader.named m 2 Reader.num1, assist := ← Reader.named m 3 Reader.num1,
         bank := ← Reader.named m 4 Reader.num1, service := ← Reader.named m 5 Reader.num1,
         occupant := ← Reader.named m 6 Reader.text, greeting := ← Reader.named m 7 Reader.greeting }

/-- Of a CHANGE CABIN that does not decode, whether it carries a mask and this names a field of the cabin roster group, bits 0 to 3
(R143, R190). -/
def Reader.namesRoster : Reader Bool := do
  let _ ← Reader.num2
  let _ ← Reader.revision
  pure ((← Reader.num1) % 16 ≠ 0)

/-- A CHANGE CABIN's payload (R190; log 13). -/
def Reader.cabinFields (bytes : List Byte) : CabinFields :=
  match Reader.changeCabin.payload bytes with
  | .fields a => .fields a
  | .malformed => .malformed ((Reader.namesRoster bytes).any Prod.fst)

def Reader.setService : Reader SetService := do
  pure { index := ← Reader.num2, rev := ← Reader.revision, service := ← Reader.num1 }

/-- The part byte is no optional number of R190: it is absent where it is left out (R192; log 36). -/
def Reader.getCabin : Reader GetCabin := do
  pure { index := ← Reader.num2, part := ← Reader.ifAny Reader.num1 }

def Reader.putScreen : Reader PutScreen := do
  pure { index := ← Reader.num1, rev := ← Reader.revision, node := ← Reader.num1, kind := ← Reader.num1,
         bank := ← Reader.num1, targets := ← Reader.list1, filter := ← Reader.num1, lines := ← Reader.num1,
         station := ← Reader.opt1, beacon := ← Reader.num1 }

/-- The first line is absent where it is left out, and where it is carried as R190's absent number, 0xFF (R190, R192; log 36). -/
def Reader.readContent : Reader ReadContent := do
  pure { index := ← Reader.num1, first := (← Reader.ifAny Reader.opt1).join }

def Reader.putPhrase : Reader PutPhrase := do
  pure { bank := ← Reader.num1, phrase := ← Reader.num1, rev := ← Reader.revision, text := ← Reader.text }

def Reader.phraseName : Reader PhraseName := do pure { bank := ← Reader.num1, phrase := ← Reader.num1 }

/-! ### The command codes (R194) and the payload lengths each request accepts (R192). -/

/-- A request of the part: its code, the shortest and the longest payload its fields can form under R190, and the command
a payload of it spells. DESIGN CHOICE (R192; log 50): a field counts with the values that its own rule allows, so the shortest
payload holds each text at the least length of its range, and of a masked set one named field, the shortest. -/
structure RequestRow where
  code : Nat
  shortest : Nat
  longest : Nat
  command : List Byte → Instr

/-- Requests of the store, the graph and the Route Engine (R194). -/
def requestRowsA : List RequestRow :=
  [ ⟨0x10, 3, 3, fun p => .readSlot (Reader.recordName.payload p)⟩,
    ⟨0x11, 3, 3, fun p => .listDamage (Reader.recordName.payload p)⟩,
    ⟨0x12, 0, 0, fun _ => .readStoreHealth⟩,
    ⟨0x13, 0, 0, fun _ => .clearStoreAlert⟩,
    ⟨0x14, 0, 0, fun _ => .sweepStore⟩,
    ⟨0x20, 3, 4, fun p => .putNode (Reader.putNode.payload p)⟩,
    ⟨0x21, 2, 3, fun p => .removeNode (Reader.slot1.payload p)⟩,
    ⟨0x22, 1, 1, fun p => .getNode (Reader.num1.payload p)⟩,
    ⟨0x23, 11, 12, fun p => .putSegment (Reader.putSegment.payload p)⟩,
    ⟨0x24, 3, 4, fun p => .removeSegment (Reader.slot2.payload p)⟩,
    ⟨0x25, 4, 5, fun p => .setSegmentState (Reader.setSegmentState.payload p)⟩,
    ⟨0x26, 2, 2, fun p => .getSegment (Reader.num2.payload p)⟩,
    ⟨0x27, 5, 6, fun p => .putTarget (Reader.putTarget.payload p)⟩,
    ⟨0x28, 2, 3, fun p => .removeTarget (Reader.slot1.payload p)⟩,
    ⟨0x29, 1, 1, fun p => .getTarget (Reader.num1.payload p)⟩,
    ⟨0x2A, 3, 3, fun p => .readReferences (Reader.recordName.payload p)⟩,
    ⟨0x2B, 0, 0, fun _ => .lockTopology⟩,
    ⟨0x30, 2, 2, fun p => .lookUpRoute (Reader.lookUp.payload p)⟩,
    ⟨0x31, 0, 0, fun _ => .recomputeAll⟩,
    ⟨0x32, 0, 0, fun _ => .readRouteEngine⟩ ]

/-- Requests of the clock, the programme and the Muster Unit (R194). DESIGN CHOICE (R192; log 50): CHANGE ENTRY's shortest payload
names one field, so a mask of 0 with nothing after it, 3 bytes, is answered LENGTH at the port. -/
def requestRowsB : List RequestRow :=
  [ ⟨0x38, 4, 4, fun p => .setClock (Reader.setClock.payload p)⟩,
    ⟨0x39, 2, 2, fun p => .shiftClock (Reader.shiftClock.payload p)⟩,
    ⟨0x3A, 0, 0, fun _ => .readClock⟩,
    ⟨0x40, 12, 132, fun p => .addEntry (Reader.addEntry.payload p)⟩,
    ⟨0x41, 4, 134, fun p => .changeEntry (Reader.changeEntry.payload p)⟩,
    ⟨0x42, 2, 3, fun p => .cancelEntry (Reader.slot1.payload p)⟩,
    ⟨0x43, 2, 3, fun p => .retireEntry (Reader.slot1.payload p)⟩,
    ⟨0x44, 1, 1, fun p => .setLinger (Reader.num1.payload p)⟩,
    ⟨0x45, 1, 1, fun p => .getEntry (Reader.num1.payload p)⟩,
    ⟨0x46, 5, 5, fun p => .listEntries (Reader.listEntries.payload p)⟩,
    ⟨0x47, 0, 0, fun _ => .readProgramme⟩,
    ⟨0x50, 9, 10, fun p => .putStation (Reader.putStation.payload p)⟩,
    ⟨0x51, 2, 3, fun p => .removeStation (Reader.slot1.payload p)⟩,
    ⟨0x52, 1, 1, fun p => .getStation (Reader.num1.payload p)⟩,
    ⟨0x53, 1, 1, fun p => .readStation (Reader.num1.payload p)⟩,
    ⟨0x54, 5, 6, fun p => .putEntrance (Reader.putEntrance.payload p)⟩,
    ⟨0x55, 2, 3, fun p => .removeEntrance (Reader.slot1.payload p)⟩,
    ⟨0x56, 1, 1, fun p => .getEntrance (Reader.num1.payload p)⟩,
    ⟨0x57, 1, 1, fun p => .readEntrance (Reader.num1.payload p)⟩,
    ⟨0x58, 1, 1, fun p => .secure (Reader.num1.payload p)⟩,
    ⟨0x59, 1, 1, fun p => .markUnsafe (Reader.num1.payload p)⟩,
    ⟨0x5A, 1, 1, fun p => .reopen (Reader.num1.payload p)⟩,
    ⟨0x5B, 3, 3, fun p => .setHeadCount (Reader.setHeadCount.payload p)⟩,
    ⟨0x5C, 1, 1, fun p => .readRoll (Reader.num1.payload p)⟩ ]

/-- Requests of the Cabin Table, the Mode Controller, the Composer, the Panel Link and the port (R194). The fields of a
cabin can pass 200 bytes, the longest payload there is (R191). DESIGN CHOICE (R192; log 50): CHANGE CABIN's shortest payload names
one field, and the texts of FIND CABIN and PUT PHRASE hold at least one character, so a mask of 0 with nothing after it, 4 bytes, and
an empty text are answered LENGTH at the port. -/
def requestRowsC : List RequestRow :=
  [ ⟨0x60, 16, 200, fun p => .putCabin (Reader.putCabin.payload p)⟩,
    ⟨0x61, 5, 200, fun p => .changeCabin (Reader.cabinFields p)⟩,
    ⟨0x62, 4, 5, fun p => .setService (Reader.setService.payload p)⟩,
    ⟨0x63, 3, 4, fun p => .removeCabin (Reader.slot2.payload p)⟩,
    ⟨0x64, 2, 3, fun p => .getCabin (Reader.getCabin.payload p)⟩,
    ⟨0x65, 2, 19, fun p => .findCabin (Reader.text.payload p)⟩,
    ⟨0x66, 0, 0, fun _ => .collectServiceChanges⟩,
    ⟨0x70, 0, 0, fun _ => .startDrill⟩,
    ⟨0x71, 0, 0, fun _ => .endDrill⟩,
    ⟨0x72, 0, 0, fun _ => .startMuster⟩,
    ⟨0x73, 0, 0, fun _ => .endMuster⟩,
    ⟨0x74, 0, 0, fun _ => .readMode⟩,
    ⟨0x78, 10, 17, fun p => .putScreen (Reader.putScreen.payload p)⟩,
    ⟨0x79, 2, 3, fun p => .removeScreen (Reader.slot1.payload p)⟩,
    ⟨0x7A, 1, 1, fun p => .getScreen (Reader.num1.payload p)⟩,
    ⟨0x7B, 1, 2, fun p => .readScreenContent (Reader.readContent.payload p)⟩,
    ⟨0x7C, 5, 149, fun p => .putPhrase (Reader.putPhrase.payload p)⟩,
    ⟨0x7D, 2, 2, fun p => .getPhrase (Reader.phraseName.payload p)⟩,
    ⟨0x80, 1, 1, fun p => .readScreenLink (Reader.num1.payload p)⟩,
    ⟨0x81, 2, 2, fun p => .readTagLink (Reader.num2.payload p)⟩,
    ⟨0x82, 0, 0, fun _ => .readLinkQueues⟩,
    ⟨0x90, 0, 0, fun _ => .readStatus⟩,
    ⟨0x91, 1, 1, fun p => .clearNotices (Reader.num1.payload p)⟩,
    ⟨0x92, 1, 1, fun p => .setNoticeEnables (Reader.num1.payload p)⟩,
    ⟨0x93, 1, 1, fun p => .setMasterEnable (Reader.num1.payload p)⟩,
    ⟨0x94, 0, 0, fun _ => .restart⟩ ]

/-- Every request of the part (R194). -/
def requestRows : List RequestRow := requestRowsA ++ requestRowsB ++ requestRowsC

/-- The FETCH code (R191). -/
def fetchCode : Byte := 0xF0#8

/-- What the part shifts out during a request select (R191). -/
def idleByte : Byte := 0xFF#8

/-! ### The port's checks (R180). -/

/-- The three answers of the port's checks (R180). -/
inductive FrameStop where
  | length | check | unknown
  deriving DecidableEq, Repr

/-- The exclusive-or of a frame's bytes (R179). -/
def xorAll (bytes : List Byte) : Byte := bytes.foldl (· ^^^ ·) 0#8

/-- The payload of a request frame that passed step 1 of R180. -/
def framePayload (bytes : List Byte) : List Byte := (bytes.drop 2).dropLast

/-- The checks of R180 on the bytes stored of a select and the number that arrived; none where the frame passes them all. -/
def portChecks (stored : List Byte) (count : Nat) : Option FrameStop :=
  match stored with
  | code :: len :: _ =>
    if count < 3 ∨ Config.maxPayload < len.toNat ∨ count ≠ len.toNat + 3 then some .length
    else if stored.getLast? ≠ some (xorAll stored.dropLast) then some .check
    else
      match requestRows.find? (fun r => r.code = code.toNat) with
      | none => some .unknown
      | some r => if len.toNat < r.shortest ∨ r.longest < len.toNat then some .length else none
  | _ => some .length

/-- What the request buffer stores of a select: bytes beyond the 203rd are counted and not stored (R179). -/
def storedBytes (bytes : List Byte) : List Byte := bytes.take Config.requestBufferBytes

/-- The command that a select's bytes spell (R179, R180). No byte is no transaction. A request select that ends while a
response is being worked is discarded (R181). -/
def decodeSelect (m : PortMoment) (bytes : List Byte) : Option Instr :=
  match bytes with
  | [] => none
  | b :: _ =>
    if b = fetchCode then some (.fetch m)
    else
      match m with
      | .duringWork => some .discardedRequest
      | .afterWork =>
        match portChecks (storedBytes bytes) bytes.length with
        | some _ => some (.stoppedFrame bytes)
        | none => (requestRows.find? (fun r => r.code = b.toNat)).map fun r => r.command (framePayload bytes)

/-! ### The panels' answers (R196). -/

/-- The body of an answer of each type, as the command it is; none where it does not decode. -/
def answerBody (type address : Nat) (body : List Byte) : Option Instr :=
  let whole (r : Reader Instr) : Option Instr :=
    match r body with
    | some (i, []) => some i
    | _ => none
  match type with
  | 0x81 => whole do pure (.ack address (← Reader.num2))
  | 0x82 => whole (pure (.nothing address))
  | 0x83 => whole do pure (.routeQuery address (← Reader.num1))
  | 0x84 => whole do pure (.programmeQuery address (← Reader.num3) (← Reader.num1))
  | 0x91 => whole (pure (.accepted address))
  | 0x92 => whole (pure (.busy address))
  | 0x93 => whole do pure (.done address (← Reader.num1))
  | 0x94 => whole do pure (.refreshing address (← Reader.num1))
  | 0x95 => whole do pure (.status address (← Reader.num1))
  | _ => none

/-- The two channels of the Panel Link (10_the_panel_link, the opening). -/
inductive Channel where
  | screen | tag
  deriving DecidableEq, Repr

/-- The answers of a channel: screens send types 0x81 to 0x84, tags 0x91 to 0x95 (R196). -/
def Channel.answers : Channel → Nat → Bool
  | .screen, type => 0x81 ≤ type && type ≤ 0x84
  | .tag, type => 0x91 ≤ type && type ≤ 0x95

/-- A panel's frame, received on a channel: start byte, address, type, body length, body, check (R196). Any other bytes, and an
answer of the other channel's types, are no answer. -/
def decodeAnswer (c : Channel) (bytes : List Byte) : Option Instr :=
  match bytes with
  | start :: a1 :: a0 :: type :: l1 :: l0 :: rest =>
    if start = 0x7E#8 ∧ c.answers type.toNat = true ∧ rest.length = l1.toNat * 256 + l0.toNat + 1
        ∧ bytes.getLast? = some (xorAll bytes.dropLast) then
      answerBody type.toNat (a1.toNat * 256 + a0.toNat) rest.dropLast
    else none
  | _ => none

/-- The rows of spec/opcode_table.json give no bits, so no word spells a command. -/
def decodeTableWord (_nbits _w : Nat) : Option Instr := none

end Sys2Proof
end

