-- ==== Sys2Proof/Machine/Operands.lean ====
section
/-! DEFINITION. The operand forms of the requests: the enumerations as bytes, counted from 0 in the order in which the manual
first gives them (R190), the ranges of numbers and texts, and the clamped inputs (R183). -/

namespace Sys2Proof

/-- A yes-or-no byte (R190). -/
def yesNo : Nat → Option Bool
  | 0 => some false
  | 1 => some true
  | _ => none

def SegKind.ofCode : Nat → Option SegKind
  | 0 => some .corridor
  | 1 => some .openDeck
  | 2 => some .ramp
  | 3 => some .stair
  | 4 => some .lift
  | _ => none

def SegKind.code : SegKind → Nat
  | .corridor => 0
  | .openDeck => 1
  | .ramp => 2
  | .stair => 3
  | .lift => 4

def Direction.ofCode : Nat → Option Direction
  | 0 => some .both
  | 1 => some .aToB
  | 2 => some .bToA
  | _ => none

def Direction.code : Direction → Nat
  | .both => 0
  | .aToB => 1
  | .bToA => 2

def Availability.ofCode : Nat → Option Availability
  | 0 => some .openAll
  | 1 => some .closed
  | 2 => some .musterOnly
  | 3 => some .normalOnly
  | _ => none

def Availability.code : Availability → Nat
  | .openAll => 0
  | .closed => 1
  | .musterOnly => 2
  | .normalOnly => 3

def Arrow.ofCode : Nat → Option Arrow
  | 0 => some .ahead
  | 1 => some .aheadRight
  | 2 => some .right
  | 3 => some .backRight
  | 4 => some .back
  | 5 => some .backLeft
  | 6 => some .left
  | 7 => some .aheadLeft
  | 8 => some .upStairs
  | 9 => some .downStairs
  | _ => none

def Arrow.code : Arrow → Nat
  | .ahead => 0
  | .aheadRight => 1
  | .right => 2
  | .backRight => 3
  | .back => 4
  | .backLeft => 5
  | .left => 6
  | .aheadLeft => 7
  | .upStairs => 8
  | .downStairs => 9

/-- STATION is a kind that host requests cannot give (R24). -/
def TargetKind.ofCode : Nat → Option TargetKind
  | 0 => some .venue
  | 1 => some .service
  | _ => none

def TargetKind.code : TargetKind → Nat
  | .venue => 0
  | .service => 1
  | .station => 2

def Audience.ofCode : Nat → Option Audience
  | 0 => some .all
  | 1 => some .adult
  | 2 => some .family
  | 3 => some .youth
  | _ => none

def Audience.code : Audience → Nat
  | .all => 0
  | .adult => 1
  | .family => 2
  | .youth => 3

def Service.ofCode : Nat → Option Service
  | 0 => some .none
  | 1 => some .privacy
  | 2 => some .makeUp
  | _ => Option.none

def Service.code : Service → Nat
  | .none => 0
  | .privacy => 1
  | .makeUp => 2

def ScreenKind.ofCode : Nat → Option ScreenKind
  | 0 => some .wall
  | 1 => some .kiosk
  | _ => none

def ScreenKind.code : ScreenKind → Nat
  | .wall => 0
  | .kiosk => 1

def ProgFilter.ofCode : Nat → Option ProgFilter
  | 0 => some .ownDeck
  | 1 => some .all
  | 2 => some .none
  | _ => Option.none

def ProgFilter.code : ProgFilter → Nat
  | .ownDeck => 0
  | .all => 1
  | .none => 2

/-- Orientation NORMAL or SWAPPED (R96). -/
def swappedOfCode : Nat → Option Bool := yesNo

/-- A filter choice is carried as its number of ticks (R96, R190). -/
def filterChoice (n : Nat) : Bool := n = 0 || n = 2 || n = 4 || n = 8

/-- A text of `lo..hi` characters with no code 0 (00_scope). -/
def textIn (lo hi : Nat) (t : Text) : Bool := lo ≤ t.length && t.length ≤ hi && t.all (· ≠ 0#16)

/-- A value in `lo..hi`. -/
def inRange (lo hi n : Nat) : Bool := lo ≤ n && n ≤ hi

/-- An optional value, absent or in `lo..hi`. -/
def inRangeOpt (lo hi : Nat) (n : Option Nat) : Bool := n.all (inRange lo hi)

/-- A clamped input (R183). -/
def clamp (lo hi n : Nat) : Nat := if n < lo then lo else if hi < n then hi else n

/-- The duration that is applied (R80). -/
def clampDuration : Nat → Nat := clamp 5 720

/-- The lead that is applied (R80), as also the linger (R87). -/
def clampLead : Nat → Nat := clamp 0 60

/-- An optional text of no character is absent (R190). -/
def optionalText (t : Text) : Option Text := if t.isEmpty then none else some t

/-- The greeting a request gives, or absent (R119). -/
def GreetingArg.greeting (g : GreetingArg) : Option Machine.Greeting :=
  if g.text.isEmpty then none else some { text := g.text, expiry := g.expiry }

/-- A greeting in range: 0..64 characters, no expiry without a text, an expiry in 0..143,999 (R119). -/
def GreetingArg.valid (g : GreetingArg) : Bool :=
  textIn 0 64 g.text && inRangeOpt 0 Config.lastMinute g.expiry && !(g.text.isEmpty && g.expiry.isSome)

/-- The ten arrows, kinds and so on of a PUT SEGMENT, when each value is in range (R23). -/
def PutSegment.record (a : PutSegment) : Option Machine.SegRec :=
  match SegKind.ofCode a.kind, Direction.ofCode a.direction, Availability.ofCode a.availability, Arrow.ofCode a.arrowA,
      Arrow.ofCode a.arrowB with
  | some kind, some direction, some availability, some arrowA, some arrowB =>
    if a.endA < Config.nodes ∧ a.endB < Config.nodes ∧ a.endA ≠ a.endB ∧ inRange 1 120 a.length then
      some { endA := a.endA, endB := a.endB, length := a.length, kind, direction, availability, arrowA, arrowB }
    else none
  | _, _, _, _, _ => none

/-- The record of a PUT TARGET in range (R24). -/
def PutTarget.record (a : PutTarget) : Option Machine.TargetRec :=
  match TargetKind.ofCode a.kind with
  | some kind => if a.node < Config.nodes ∧ a.phrase < 128 then some { node := a.node, phrase := a.phrase, kind } else none
  | none => none

/-- The record of a PUT STATION in range, its near-full percent clamped (R94). -/
def PutStation.record (a : PutStation) : Option Machine.StationRec :=
  if a.node < Config.nodes ∧ a.capacity ≤ 999 ∧ inRangeOpt 0 15 a.overflow ∧ inRangeOpt 0 15 a.lamp ∧ a.phrase < 128 then
    some { node := a.node, capacity := a.capacity, nearFull := clamp 50 99 a.nearFull, overflow := a.overflow,
           lamp := a.lamp, phrase := a.phrase }
  else none

/-- The record of a PUT ENTRANCE in range (R96). -/
def PutEntrance.record (a : PutEntrance) : Option Machine.EntranceRec :=
  match swappedOfCode a.orientation with
  | some swapped =>
    if inRangeOpt 0 15 a.station ∧ filterChoice a.filter then some { station := a.station, filter := a.filter, swapped }
    else none
  | none => none

/-- The record of an ADD ENTRY in range, duration and lead clamped (R74, R80). -/
def AddEntry.record (a : AddEntry) : Option Machine.EntryRec :=
  match Audience.ofCode a.audience, yesNo a.highlight with
  | some audience, some highlight =>
    if textIn 1 40 a.title ∧ inRangeOpt 16 39 a.venue ∧ a.start ≤ Config.lastMinute then
      some { title := a.title, venue := a.venue, start := a.start, duration := clampDuration a.duration,
             lead := clampLead a.lead, audience, highlight, cancelled := none }
    else none
  | _, _ => none

/-- Whether a field of an ADD ENTRY was clamped (R80). -/
def AddEntry.adjusted (a : AddEntry) : Bool := clampDuration a.duration ≠ a.duration || clampLead a.lead ≠ a.lead

/-- The named fields of a CHANGE ENTRY lie in their ranges (R82, step a). -/
def ChangeEntry.valid (a : ChangeEntry) : Bool :=
  a.title.all (textIn 1 40) && a.venue.all (inRangeOpt 16 39) && a.start.all (inRange 0 Config.lastMinute)
    && a.audience.all (fun c => (Audience.ofCode c).isSome) && a.highlight.all (fun c => (yesNo c).isSome)

/-- The stored record with the named fields replaced (R82). -/
def ChangeEntry.apply (a : ChangeEntry) (r : Machine.EntryRec) : Machine.EntryRec :=
  { r with
    title := a.title.getD r.title
    venue := a.venue.getD r.venue
    start := a.start.getD r.start
    duration := (a.duration.map clampDuration).getD r.duration
    lead := (a.lead.map clampLead).getD r.lead
    audience := (a.audience.bind Audience.ofCode).getD r.audience
    highlight := (a.highlight.bind yesNo).getD r.highlight }

/-- Whether a named field was clamped (R80). -/
def ChangeEntry.adjusted (a : ChangeEntry) : Bool :=
  a.duration.any (fun d => clampDuration d ≠ d) || a.lead.any (fun l => clampLead l ≠ l)

/-- Whether start, duration or lead is named (R83). -/
def ChangeEntry.timing (a : ChangeEntry) : Bool := a.start.isSome || a.duration.isSome || a.lead.isSome

/-- The record of a PUT CABIN in range (R119, R121 step 1). -/
def PutCabin.record (a : PutCabin) : Option Machine.CabinRec :=
  match yesNo a.assist, Service.ofCode a.service with
  | some assist, some service =>
    if textIn 1 6 a.label ∧ a.node < Config.nodes ∧ a.station < Config.stations ∧ inRange 1 6 a.berths ∧ a.bank < Config.banks
        ∧ textIn 0 32 a.occupant ∧ a.greeting.valid then
      some { label := a.label, node := a.node, station := a.station, berths := a.berths, assist, bank := a.bank, service,
             occupant := optionalText a.occupant, greeting := a.greeting.greeting }
    else none
  | _, _ => none

/-- The named fields of a CHANGE CABIN lie in their ranges (R122). -/
def ChangeCabin.valid (a : ChangeCabin) : Bool :=
  a.node.all (· < Config.nodes) && a.station.all (· < Config.stations) && a.berths.all (inRange 1 6)
    && a.assist.all (fun c => (yesNo c).isSome) && a.bank.all (· < Config.banks)
    && a.service.all (fun c => (Service.ofCode c).isSome) && a.occupant.all (textIn 0 32)
    && a.greeting.all GreetingArg.valid

/-- The stored record with the named fields replaced (R122). -/
def ChangeCabin.apply (a : ChangeCabin) (r : Machine.CabinRec) : Machine.CabinRec :=
  { r with
    node := a.node.getD r.node
    station := a.station.getD r.station
    berths := a.berths.getD r.berths
    assist := (a.assist.bind yesNo).getD r.assist
    bank := a.bank.getD r.bank
    service := (a.service.bind Service.ofCode).getD r.service
    occupant := (a.occupant.map optionalText).getD r.occupant
    greeting := (a.greeting.map GreetingArg.greeting).getD r.greeting }

/-- A CHANGE CABIN that names a field of the cabin roster group belongs to that group (R143). -/
def ChangeCabin.rosterGroup (a : ChangeCabin) : Bool :=
  a.node.isSome || a.station.isSome || a.berths.isSome || a.assist.isSome

/-- Whether the roster fields are named (R122). -/
def ChangeCabin.namesRoster (a : ChangeCabin) : Bool := a.station.isSome || a.berths.isSome || a.assist.isSome

/-- Whether a field of words 0..1 is named (R122). -/
def ChangeCabin.namesHead (a : ChangeCabin) : Bool := a.rosterGroup || a.bank.isSome || a.service.isSome

/-- The record of a PUT SCREEN in range (R146). -/
def PutScreen.record (a : PutScreen) : Option Machine.ScreenRec :=
  match ScreenKind.ofCode a.kind, ProgFilter.ofCode a.filter, yesNo a.beacon with
  | some kind, some filter, some beacon =>
    if a.node < Config.nodes ∧ a.bank < Config.banks ∧ a.targets.length ≤ 6 ∧ a.targets.all (· < Config.targets)
        ∧ a.targets.Nodup ∧ a.lines ≤ 4 ∧ inRangeOpt 0 15 a.station then
      some { node := a.node, kind, bank := a.bank, targets := a.targets, filter, lines := a.lines, station := a.station,
             beacon }
    else none
  | _, _, _ => none

end Sys2Proof
end

