-- ==== Sys2Proof/Machine/Formats.lean ====
section
/-! DEFINITION. The bytes the part sends: the forms of R190, response frames (R191, R195), content items and panel frames
(R196). -/

namespace Sys2Proof.Machine

/-- A whole number in one, two or three bytes, big-endian (R190). -/
def num1 (n : Nat) : List Byte := [byte n]
def num2 (n : Nat) : List Byte := [byte (n / 256), byte n]
def num3 (n : Nat) : List Byte := [byte (n / 65536), byte (n / 256), byte n]

/-- An optional number: the all-ones value stands for absent (R190). -/
def opt1 (n : Option Nat) : List Byte := num1 (n.getD 0xFF)
def opt2 (n : Option Nat) : List Byte := num2 (n.getD 0xFFFF)
def opt3 (n : Option Nat) : List Byte := num3 (n.getD 0xFFFFFF)

/-- A yes-or-no byte, and a two-valued condition, 1 while it holds (R190, log 15). -/
def flag (b : Bool) : List Byte := num1 (if b then 1 else 0)

/-- A character code in the shortest form that holds it (R190). -/
def charBytes (c : Char16) : List Byte :=
  let n := c.toNat
  if n ≠ 0 ∧ n < 0x80 then [byte n]
  else if n < 0x8000 then [byte (0x80 + n / 256), byte n]
  else [0#8, byte (n / 256), byte n]

/-- A text: count byte, then the characters (R190). -/
def textBytes (t : Text) : List Byte := byte t.length :: t.flatMap charBytes

/-- An optional text is absent with count 0 (R190). -/
def optTextBytes (t : Option Text) : List Byte := textBytes (t.getD [])

/-- A list: count byte, then the elements (R190). -/
def listBytes (elements : List (List Byte)) : List Byte := byte elements.length :: elements.flatten

/-- An optional group: presence byte, then the group (R190). -/
def groupBytes (g : Option (List Byte)) : List Byte :=
  match g with
  | none => [0#8]
  | some bytes => 1#8 :: bytes

/-- A ship time in four bytes (R190). -/
def timeBytes (t : ShipTime) : List Byte := num1 t.day ++ num2 t.minute ++ num1 t.second

/-- An absent captured time has day 0xFF (R190; the other three bytes: log 15). -/
def optTimeBytes (t : Option ShipTime) : List Byte :=
  match t with
  | none => [0xFF#8, 0xFF#8, 0xFF#8, 0xFF#8]
  | some t => timeBytes t

/-- The kind byte and the index of a record name (R190). -/
def Place.kindCode : Place → Nat
  | .slot k _ => k.code
  | .cell _ _ => 9

def Place.index : Place → Nat
  | .slot _ i => i
  | .cell t x => t * 256 + x

/-- A record name in three bytes (R190). -/
def Place.bytes (p : Place) : List Byte := num1 p.kindCode ++ num2 p.index

/-- An absent record name (R190). -/
def optPlaceBytes (p : Option Place) : List Byte :=
  match p with
  | none => [0xFF#8, 0xFF#8, 0xFF#8]
  | some p => p.bytes

/-! ### The enumerations of the answers, in the order in which the manual first gives them (R190). -/

def EntryState.code : EntryState → Nat
  | .scheduled => 0
  | .soon => 1
  | .running => 2
  | .ended => 3
  | .cancelled => 4

def StationState.code : StationState → Nat
  | .standby => 0
  | .taking => 1
  | .nearFull => 2
  | .full => 3
  | .secured => 4
  | .notSafe => 5

def DecoderState.code : DecoderState → Nat
  | .idle => 0
  | .outer => 1
  | .inner => 2
  | .bothIn => 3
  | .bothOut => 4
  | .clearingIn => 5
  | .clearingOut => 6
  | .muddled => 7
  | .fault => 8

def SessionKind.code : SessionKind → Nat
  | .drill => 0
  | .muster => 1

def ColState.code : ColState → Nat
  | .empty => 0
  | .valid => 1
  | .stale => 2

def Clock.code : Clock → Nat
  | .unset => 0
  | .running _ => 1
  | .atLimit _ => 2

def Mode.code : Mode → Nat
  | .normal => 0
  | .drill => 1
  | .muster => 2

def ModeCause.code : ModeCause → Nat
  | .reset => 0
  | .host => 1
  | .alarm => 2
  | .restart => 3

def FilterState.code : FilterState → Nat
  | .settling _ => 0
  | .released => 1
  | .asserted => 2

def ScreenPresence.code : ScreenPresence → Nat
  | .absent => 0
  | .wall => 1
  | .kiosk => 2

def TagService.code : TagService → Nat
  | .inService => 0
  | .silent => 1
  | .fault => 2

def ResetCause.code : ResetCause → Nat
  | .powerOn => 0
  | .resetPin => 1
  | .restart => 2

/-- PRESENT is the first of the two values, ABSENT the second (R1). -/
def presenceCode (present : Bool) : Nat := if present then 0 else 1

/-- ASSERTED is the first of the two values, RELEASED the second (R13). -/
def alertCode (asserted : Bool) : Nat := if asserted then 0 else 1

/-- The status codes (R195). -/
def Status.code : Status → Nat
  | .ok => 0x00
  | .adjusted => 0x01
  | .check => 0x02
  | .length => 0x03
  | .unknown => 0x04
  | .notReady => 0x05
  | .range => 0x06
  | .absent => 0x07
  | .full => 0x08
  | .reference => 0x09
  | .revision => 0x0A
  | .mode => 0x0B
  | .locked => 0x0C
  | .damaged => 0x0D
  | .final => 0x0E
  | .busy => 0x0F

/-! ### Response frames (R191). -/

/-- The status byte: the code in bits 0..4, the discard flag in bit 7 (R191). -/
def Response.statusByte (r : Response) : Byte := byte (r.status.code + if r.discard then 0x80 else 0)

/-- The frame before its check byte. -/
def Response.body (r : Response) : List Byte := r.statusByte :: r.code :: byte r.payload.length :: r.payload

/-- The frame a fetch shifts out (R191). -/
def Response.frame (r : Response) : List Byte := r.body ++ [xorAll r.body]

/-- What a fetch shifts out while no complete response is held (R182). -/
def notReadyResponse : Response := { status := .notReady, code := fetchCode, payload := [] }

/-! ### Content (R196). -/

/-- The text of a phrase item (R150). -/
def PhraseText.resolve (number : Nat) : PhraseText → Text
  | .rom bank => Config.romText bank number
  | .stored t => t

/-- An item; a PHRASE item carries its text on the panel link and not on the command port (R192, R196). -/
def Item.bytes (onLink : Bool) : Item → List Byte
  | .phrase p t => num1 1 ++ num1 p ++ (if onLink then textBytes (t.resolve p) else [])
  | .text t => num1 2 ++ textBytes t
  | .number n => num1 3 ++ num2 n
  | .time m => num1 4 ++ num2 m
  | .arrow a => num1 5 ++ num1 a.code
  | .minutes n => num1 6 ++ num1 n
  | .letter s => num1 7 ++ num1 s
  | .held => num1 8
  | .beacon on off => num1 9 ++ num1 on ++ num1 off

/-- A line: item count, then the items (R196). -/
def lineBytes (onLink : Bool) (line : List Item) : List Byte := listBytes (line.map (Item.bytes onLink))

/-- A content frame: line count, then the lines (R196). -/
def frameBytes (onLink : Bool) (f : Frame) : List Byte := listBytes (f.map (lineBytes onLink))

/-- A REPLY's body (R196). -/
def ReplyBody.bytes : ReplyBody → List Byte
  | .refusedMuster => num1 1
  | .answer lines => num1 0 ++ frameBytes true lines

/-- The type byte of a frame to a panel (R196). -/
def PanelBody.type : PanelBody → Nat
  | .send _ _ => 0x01
  | .kioskPoll => 0x02
  | .reply _ => 0x03
  | .tagSend _ _ _ => 0x11
  | .donePoll => 0x12
  | .statusPoll => 0x13

/-- The body of a frame to a panel (R196). -/
def PanelBody.bytes : PanelBody → List Byte
  | .send v f => num2 v ++ frameBytes true f
  | .tagSend v sv f => num2 v ++ num1 sv.code ++ frameBytes true f
  | .reply b => b.bytes
  | .kioskPoll | .donePoll | .statusPoll => []

/-- A panel frame before its check byte: start byte, address, type, body length, body (R196). -/
def PanelFrame.unchecked (f : PanelFrame) : List Byte :=
  0x7E#8 :: (num2 f.address ++ num1 f.body.type ++ num2 f.body.bytes.length ++ f.body.bytes)

/-- A panel frame as the channel carries it (R196). -/
def PanelFrame.bytes (f : PanelFrame) : List Byte := f.unchecked ++ [xorAll f.unchecked]

end Sys2Proof.Machine
end

