-- ==== Sys2Proof/Machine/Ops.lean ====
section
/-! DEFINITION. The record store's operations (R1 to R11), an event in progress, and the response of a request. -/

namespace Sys2Proof.Machine

/-! ### The regions of the store (R1, R2). -/

/-- The slots of a kind (R1). A phrase's index has the bank in its high byte (R190). -/
def kindHas (k : Kind) (i : Nat) : Bool :=
  match k with
  | .node => i < Config.nodes
  | .segment => i < Config.segments
  | .target => i < Config.targets
  | .station => i < Config.stations
  | .entrance => i < Config.entrances
  | .entry => i < Config.entries
  | .cabin => i < Config.cabins
  | .screen => i < Config.screens
  | .phrase => i / 256 < Config.banks && inRange 16 127 (i % 256)

/-- Words of a slot (R1). -/
def kindWords : Kind → Nat
  | .node => 1
  | .segment => 2
  | .target => 1
  | .station => 2
  | .entrance => 1
  | .entry => 12
  | .cabin => 28
  | .screen => 2
  | .phrase => 13

/-- First word of a region (R2). -/
def kindFirst : Kind → Nat
  | .node => 0
  | .segment => 192
  | .target => 960
  | .station => 1000
  | .entrance => 1032
  | .entry => 1064
  | .cabin => 4136
  | .screen => 18472
  | .phrase => 18568

/-- A slot's place in its region (R2). -/
def kindOrdinal (k : Kind) (i : Nat) : Nat :=
  match k with
  | .phrase => i / 256 * 112 + (i % 256 - 16)
  | _ => i

/-- The address of word `j` of a slot (R2). -/
def slotWord (k : Kind) (i j : Nat) : Nat := kindFirst k + kindOrdinal k i * kindWords k + j

/-- The address of a route cell's word (R2). -/
def cellWord (t x : Nat) : Nat := 24392 + t * 192 + x

/-- Every word of a slot or cell, in ascending order (R2). -/
def Place.words : Place → List Nat
  | .slot k i => (List.range (kindWords k)).map (slotWord k i)
  | .cell t x => [cellWord t x]

/-- The number of a record name; its order is store order (R2, R190). -/
def Place.name (p : Place) : Nat := p.kindCode * 65536 + p.index

/-- The place lies in its kind's range (R1). -/
def Place.valid : Place → Bool
  | .slot k i => kindHas k i
  | .cell t x => t < Config.targets && x < Config.nodes

/-- The kind of a kind byte below 9 (R190). -/
def kindOfCode : Nat → Option Kind
  | 0 => some .node
  | 1 => some .segment
  | 2 => some .target
  | 3 => some .station
  | 4 => some .entrance
  | 5 => some .entry
  | 6 => some .cabin
  | 7 => some .screen
  | 8 => some .phrase
  | _ => none

/-- The place a record name names, in range or not; none for a kind byte that names no kind (R190). -/
def placeOf (kind index : Nat) : Option Place :=
  if kind = 9 then some (.cell (index / 256) (index % 256)) else (kindOfCode kind).map (.slot · index)

/-- The place a record name names, when it lies in its kind's range (R1). -/
def namedPlace (a : RecordName) : Option Place := (placeOf a.kind a.index).filter Place.valid

/-- The number of a phrase slot (R190). -/
def phraseIndex (bank p : Nat) : Nat := bank * 256 + p

/-- The first place of the region after a slot kind's (R2). -/
def regionAfter : Kind → Place
  | .node => .slot .segment 0
  | .segment => .slot .target 0
  | .target => .slot .station 0
  | .station => .slot .entrance 0
  | .entrance => .slot .entry 0
  | .entry => .slot .cabin 0
  | .cabin => .slot .screen 0
  | .screen => .slot .phrase 16
  | .phrase => .cell 0 0

/-- The next place in store order; none after the last cell (R2). -/
def Place.next : Place → Option Place
  | .slot k i =>
    if kindHas k (i + 1) then some (.slot k (i + 1))
    else if k = .phrase ∧ i / 256 + 1 < Config.banks then some (.slot .phrase (phraseIndex (i / 256 + 1) 16))
    else some (regionAfter k)
  | .cell t x =>
    if x + 1 < Config.nodes then some (.cell t (x + 1))
    else if t + 1 < Config.targets then some (.cell (t + 1) 0)
    else none

/-- The slot or cell that a word of the store belongs to (R2). -/
def placeOfWord (w : Nat) : Place :=
  if 24392 ≤ w then .cell ((w - 24392) / 192) ((w - 24392) % 192)
  else if 18568 ≤ w then
    let o := (w - 18568) / 13
    .slot .phrase (phraseIndex (o / 112) (o % 112 + 16))
  else if 18472 ≤ w then .slot .screen ((w - 18472) / 2)
  else if 4136 ≤ w then .slot .cabin ((w - 4136) / 28)
  else if 1064 ≤ w then .slot .entry ((w - 1064) / 12)
  else if 1032 ≤ w then .slot .entrance (w - 1032)
  else if 1000 ≤ w then .slot .station ((w - 1000) / 2)
  else if 960 ≤ w then .slot .target (w - 960)
  else if 192 ≤ w then .slot .segment ((w - 192) / 2)
  else .slot .node w

/-! ### Directory and damage map (R1). -/

/-- The directory entry of a slot. -/
def Store.entry (st : Store) (k : Kind) (i : Nat) : DirEntry := Table.get {} st.dir (Place.slot k i).name

/-- The slot is PRESENT. -/
def Store.present (st : Store) (k : Kind) (i : Nat) : Bool := (st.entry k i).present

/-- The slot's revision. -/
def Store.rev (st : Store) (k : Kind) (i : Nat) : Nat := (st.entry k i).rev

/-- The DAMAGED flag of a slot or cell. -/
def Store.isDamaged (st : Store) (p : Place) : Bool := Table.get false st.damage p.name

/-- A cell's content. -/
def Store.cell (st : Store) (t x : Nat) : Cell := Table.get {} st.cells (Place.cell t x).index

/-! ### Writing words (R3). -/

/-- Words written whole with fresh checks read back clean, and a correction still to be written back to one of them is
dropped (R3, R5). -/
def Store.writeWords (st : Store) (ws : List Nat) : Store :=
  { st with
    ramErrors := Table.setAll .clean st.ramErrors ws .clean
    writeBacks := st.writeBacks.map fun b => { b with rewritten := b.rewritten || ws.contains b.word } }

/-- Sets a DAMAGED flag. -/
def Store.setDamaged (st : Store) (p : Place) (d : Bool) : Store :=
  { st with damage := Table.set false st.damage p.name d }

/-- Raises a slot's revision, from 255 to 0 in wrap, and gives the slot a presence (R10). -/
def Store.bump (st : Store) (k : Kind) (i : Nat) (present : Bool) : Store :=
  { st with dir := Table.set {} st.dir (Place.slot k i).name { present, rev := (st.rev k i + 1) % 256 } }

/-- A whole-record write: every word is rewritten, the slot is PRESENT, its flag clears, its revision rises (R3, R9, R10). The
record itself is written by the owner's operation. -/
def Store.putSlot (st : Store) (k : Kind) (i : Nat) : Store :=
  ((st.writeWords (Place.slot k i).words).setDamaged (.slot k i) false).bump k i true

/-- A removal writes no word (R3, R9, R10). -/
def Store.removeSlot (st : Store) (k : Kind) (i : Nat) : Store := (st.setDamaged (.slot k i) false).bump k i false

/-- The write of a partial change: the words read are written back, and the revision rises (R3, R10). -/
def Store.changeSlot (st : Store) (k : Kind) (i : Nat) (ws : List Nat) : Store := (st.writeWords ws).bump k i true

/-- Writes route cells of column `t` at the nodes `xs`, whole, which clears their flags (R3, R9). -/
def Store.writeCells (st : Store) (t : Nat) (xs : List Nat) (content : Nat → Cell) : Store :=
  xs.foldl (fun st x =>
    ((({ st with cells := Table.set {} st.cells (Place.cell t x).index (content x) }).writeWords [cellWord t x]).setDamaged
      (.cell t x) false)) st

/-- Writes cells with no distance and no next segment. -/
def Store.emptyCells (st : Store) (t : Nat) (xs : List Nat) : Store := st.writeCells t xs fun _ => {}

/-! ### Reading words (R4 to R8). -/

/-- What a read of a place answers: its content, or the damaged indication of a flag that stood, or of a finding that this
read has made (R6, R7). -/
inductive ReadResult where
  | content
  | damaged
  | finding
  deriving DecidableEq, Repr

/-- One up to a top at which a count stays. -/
def countTo (top n : Nat) : Nat := if n < top then n + 1 else n

/-- A single-bit error: counted, and to be written back (R5). -/
def Store.correct (st : Store) (w : Nat) (bySweep : Bool) : Store :=
  { st with
    corrected := countTo 65535 st.corrected
    writeBacks := st.writeBacks ++ [{ word := w, rewritten := false }]
    sweep := if bySweep then st.sweep.map fun sw => { sw with corrections := countTo 65535 sw.corrections } else st.sweep }

/-- The store's own steps at a double-bit error: flag, first damaged record, alert, the sweep's tally (R6, steps 1 to 3
and 6). -/
def Store.find (st : Store) (p : Place) (bySweep : Bool) : Store :=
  { st.setDamaged p true with
    firstDamaged := st.firstDamaged <|> some p
    alert := true
    sweep := if bySweep then st.sweep.map fun sw => { sw with damaged := sw.damaged + 1 } else st.sweep }

/-- Reads words of a place one after the other, stopping at a double-bit word (R4). -/
def Store.readList (p : Place) (bySweep : Bool) : List Nat → Store → Store × ReadResult
  | [], st => (st, .content)
  | w :: ws, st =>
    match Table.get .clean st.ramErrors w with
    | .clean => Store.readList p bySweep ws st
    | .single => Store.readList p bySweep ws (st.correct w bySweep)
    | .double => (st.find p bySweep, .finding)

/-- Reads words of a place; a place whose flag is set is not read (R7). -/
def Store.read (st : Store) (p : Place) (ws : List Nat) (bySweep : Bool := false) : Store × ReadResult :=
  if st.isDamaged p then (st, .damaged) else Store.readList p bySweep ws st

/-! ### An event in progress. -/

/-- What a neighbour tells the Composer (R157). -/
inductive Told where
  | screen (n : Nat)
  | targetName (t : Nat)
  | targetNode (t : Nat)
  | column (t : Nat)
  | segment (ends : List Nat)
  | node (n : Nat)
  | entry
  | clock
  | station (n : Nat)
  | effective (n : Nat)
  | bank (b : Nat)
  | cabin (n : Nat)
  | everyPanel
  deriving DecidableEq, Repr

/-- An event in progress: the state, the findings whose owners have not reacted yet (R6, step 5), what the Composer has been
told and not yet composed (R157), and, in a mode change event, the tags whose versions have risen (R176). A step begins and
ends with the lists empty. -/
structure Ev extends State where
  found : List Place := []
  told : List Told := []
  deferTags : Bool := false
  risen : List Nat := []
  deriving DecidableEq, Repr

/-- The event a step begins with. -/
def Ev.start (s : State) : Ev := { toState := s }

/-- A change of the state inside an event. -/
def Ev.on (f : State → State) (e : Ev) : Ev := { e with toState := f e.toState }

/-- A change of the store inside an event. -/
def Ev.onStore (f : Store → Store) (e : Ev) : Ev := { e with store := f e.store }

/-- Tells the Composer. -/
def Ev.tell (t : Told) (e : Ev) : Ev := { e with told := e.told ++ [t] }

/-- Sets a notice pending. -/
def Ev.notice (n : Notice) (e : Ev) : Ev := e.on (State.notice n)

/-- A read inside an event: a finding sets the STORE notice and waits for its owner (R6, steps 4 and 5). -/
def Ev.read (p : Place) (ws : List Nat) (e : Ev) (bySweep : Bool := false) : Ev × ReadResult :=
  match e.store.read p ws bySweep with
  | (st, .finding) => (({ e with store := st, found := e.found ++ [p] }).notice .store, .finding)
  | (st, r) => ({ e with store := st }, r)

/-- A read of the whole of a place. -/
def Ev.readWhole (p : Place) (e : Ev) : Ev × ReadResult := e.read p p.words

/-! ### Clock values. -/

/-- The value of the clock, absent in UNSET (R64). -/
def Clock.value : Clock → Option ShipTime
  | .unset => none
  | .running t => some t
  | .atLimit t => some t

/-- The voyage minute of a value (R64). -/
def ShipTime.voyage (t : ShipTime) : Nat := t.day * 1440 + t.minute

/-- "Now": the voyage minute of the current value; none in UNSET (R64). -/
def State.now (s : State) : Option Nat := s.time.clock.value.map ShipTime.voyage

/-- What a capture takes (R73). -/
def State.captured (s : State) : Option ShipTime := s.time.clock.value

/-! ### Responses (R181). -/

/-- Writes the response of the request that this step takes: whatever the buffer held is dropped (R181). In the request's select
the part has shifted out the idle value (R179). -/
def State.answer (code : Byte) (st : Status) (payload : List Byte) (s : State) : State :=
  { s with port := { s.port with buffer := .working { status := st, code, payload }, spiOut := .idle } }

/-- The same inside an event. -/
def Ev.answer (code : Byte) (st : Status) (payload : List Byte) (e : Ev) : Ev := e.on (State.answer code st payload)

/-- The response being worked becomes READY (R181). -/
def Port.complete (p : Port) : Port :=
  match p.buffer with
  | .working r => { p with buffer := .ready r }
  | _ => p

/-- A check of a request: whether it refuses, with the status and what the response carries (R12). -/
structure Check where
  refuses : Bool
  status : Status
  payload : List Byte := []

/-- The first check that refuses (R12). -/
def firstRefusal (checks : List Check) : Option Check := checks.find? Check.refuses

/-- An expected revision, if carried, equals the slot's revision; a refusal carries the revision (R11). -/
def Store.revCheck (st : Store) (k : Kind) (i : Nat) (rev : Option Nat) : Check :=
  { refuses := rev.any (· ≠ st.rev k i), status := .revision, payload := num1 (st.rev k i) }

/-- For a change or removal, the slot is PRESENT (R12, step 5). -/
def Store.presentCheck (st : Store) (k : Kind) (i : Nat) : Check :=
  { refuses := !st.present k i, status := .absent }

/-- For a partial change, and for REOPEN, the slot's flag is clear (R12, step 6; R8, R110). DEDUCED: the refusal carries kind and
index as one of R7 does; these rules name no field (R193; log 46). -/
def Store.damageCheck (st : Store) (k : Kind) (i : Nat) : Check :=
  { refuses := st.isDamaged (.slot k i), status := .damaged, payload := (Place.slot k i).bytes }

/-- The named index lies in the kind's range (R12, step 3). -/
def rangeCheck (k : Kind) (i : Nat) : Check := { refuses := !kindHas k i, status := .range }

/-- A refusal with RANGE. -/
def rangeIf (b : Bool) : Check := { refuses := b, status := .range }

/-- The group is not allowed in MUSTER (R143). -/
def State.notInMuster (s : State) : Check := { refuses := s.mode.mode = .muster, status := .mode }

/-- The group is allowed in NORMAL alone (R143). -/
def State.normalOnly (s : State) : Check := { refuses := s.mode.mode ≠ .normal, status := .mode }

/-- The group is refused in NORMAL (R143). -/
def State.sessionOnly (s : State) : Check := { refuses := s.mode.mode = .normal, status := .mode }

/-- The topology lock (R38). -/
def State.lockedIf (s : State) (b : Bool) : Check := { refuses := s.graph.lock && b, status := .locked }

end Sys2Proof.Machine
end

