-- ==== Sys2Proof/Machine/MusterOps.lean ====
section
/-! DEFINITION. The Muster Unit's operations: station states and thresholds, redirection, lamps, head counts, beam filters and
entrance decoders, sessions (R94 to R118). -/

namespace Sys2Proof.Machine

/-! ### Registers. -/

/-- A change of the Muster Unit's registers inside an event. -/
def Ev.onMuster (f : Muster → Muster) (e : Ev) : Ev := { e with muster := f e.muster }

/-- Station n's settings; none while it is ABSENT (R94, R95). -/
def Muster.settings (m : Muster) (n : Nat) : Option StationSettings := Table.get none m.stationSettings n

/-- Station n is present. -/
def Muster.hasStation (m : Muster) (n : Nat) : Bool := (m.settings n).isSome

/-- Station n's live state. -/
def Muster.live (m : Muster) (n : Nat) : StationLive := Table.get {} m.stations n

/-- Writes station n's live state. -/
def Muster.setLive (n : Nat) (l : StationLive) (m : Muster) : Muster := { m with stations := Table.set {} m.stations n l }

/-- Entrance k's settings; none while it is ABSENT (R96). -/
def Muster.entrance (m : Muster) (k : Nat) : Option EntranceRec := Table.get none m.entranceSettings k

/-- Entrance k's decoder. -/
def Muster.decoder (m : Muster) (k : Nat) : Decoder := Table.get {} m.decoders k

/-- Writes entrance k's decoder. -/
def Muster.setDecoder (k : Nat) (d : Decoder) (m : Muster) : Muster := { m with decoders := Table.set {} m.decoders k d }

/-- The filter of beam input i: inputs 2k and 2k + 1 are the first and second of entrance k (log 28). -/
def Muster.beam (m : Muster) (i : Nat) : Beam := Table.get {} m.beams i

/-- Writes a beam's filter. -/
def Muster.setBeam (i : Nat) (b : Beam) (m : Muster) : Muster := { m with beams := Table.set {} m.beams i b }

/-- Lamp line l's generator. -/
def Muster.lamp (m : Muster) (l : Nat) : Lamp := Table.get {} m.lamps l

/-- Writes a lamp line's generator. -/
def Muster.setLamp (l : Nat) (p : Lamp) (m : Muster) : Muster := { m with lamps := Table.set {} m.lamps l p }

/-- Cabin c's entry in the roster. -/
def Muster.rosterEntry (m : Muster) (c : Nat) : Option RosterEntry := Table.get none m.roster c

/-- Writes cabin c's entry in the roster (R106). -/
def Muster.setRoster (c : Nat) (r : Option RosterEntry) (m : Muster) : Muster :=
  { m with roster := Table.set none m.roster c r }

/-- The roster entries that name station n. -/
def Muster.rosterOf (m : Muster) (n : Nat) : List RosterEntry :=
  m.roster.filterMap fun e => e.2.filter fun r => r.station = n

/-- Expected persons: the sum of berths over the roster entries that name the station (R106). -/
def Muster.expected (m : Muster) (n : Nat) : Nat := ((m.rosterOf n).map RosterEntry.berths).sum

/-- Assistance count: the roster entries that name the station with assist yes (R106). -/
def Muster.assistance (m : Muster) (n : Nat) : Nat := ((m.rosterOf n).filter RosterEntry.assist).length

/-! ### Redirection (R116). -/

/-- The station is OPEN or NEAR FULL. -/
def Muster.takes (m : Muster) (n : Nat) : Bool :=
  match (m.live n).state with
  | .taking | .nearFull => true
  | _ => false

/-- Follows overflow links from `cur`, with the stations already visited (R116). -/
def Muster.overflow (m : Muster) : Nat → List Nat → Nat → Option Nat
  | 0, _, _ => none
  | hops + 1, visited, cur =>
    match (m.settings cur).bind StationSettings.overflow with
    | none => none
    | some n =>
      if !m.hasStation n || visited.contains n then none
      else if m.takes n then some n
      else m.overflow hops (n :: visited) n

/-- A station's effective station and marker; none while it is ABSENT (R116). -/
def Muster.resolved (m : Muster) (n : Nat) : Option Effective :=
  if !m.hasStation n then none else
  match (m.live n).state with
  | .standby | .taking | .nearFull => some { station := n, askCrew := false }
  | .full | .secured | .notSafe =>
    match m.overflow 3 [n] n with
    | some o => some { station := o, askCrew := false }
    | none => some { station := n, askCrew := true }

/-- The effective station as last resolved. -/
def Muster.effectiveOf (m : Muster) (n : Nat) : Option Effective := Table.get none m.effective n

/-- Resolves one station, telling the Composer of a change. -/
def Ev.resolveOne (e : Ev) (n : Nat) : Ev :=
  let r := e.muster.resolved n
  if r = e.muster.effectiveOf n then e
  else (e.onMuster fun m => { m with effective := Table.set none m.effective n r }).tell (.effective n)

/-- Redirection is resolved for all sixteen stations (R116). -/
def Ev.resolve (e : Ev) : Ev := (List.range Config.stations).foldl Ev.resolveOne e

/-! ### Lamps (R117). -/

/-- The on-count and off-count of a station state (R117). -/
def lampPattern : StationState → Nat × Nat
  | .standby => (0, 0)
  | .taking => (8, 8)
  | .nearFull => (3, 3)
  | .full => (16, 0)
  | .secured => (0, 0)
  | .notSafe => (2, 14)

/-- A generator takes a pattern; the line keeps its level until the next 16 Hz tick (R117). -/
def Lamp.take (p : Nat × Nat) (l : Lamp) : Lamp := { l with onCount := p.1, offCount := p.2, fresh := true }

/-- The pattern of the station that names the line; steady off where none does (R117). -/
def Muster.patternOf (m : Muster) (owner : Option Nat) : Nat × Nat :=
  match owner with
  | none => (0, 0)
  | some n => lampPattern (m.live n).state

/-- The present station that names line l (R117). -/
def Muster.ownerOf (m : Muster) (l : Nat) : Option Nat :=
  (List.range Config.stations).find? fun n => (m.settings n).any fun s => s.lamp = some l

/-- A line whose naming station has changed takes the pattern of the new one (R117). -/
def Muster.pointLamp (m : Muster) (l : Nat) : Muster :=
  let owner := m.ownerOf l
  if owner = (m.lamp l).owner then m
  else m.setLamp l { (m.lamp l).take (m.patternOf owner) with owner }

/-- Points the generators at their lines (R94, step 6; R117). -/
def Muster.pointLamps (m : Muster) : Muster := (List.range Config.lamps).foldl Muster.pointLamp m

/-- The pattern flashes. -/
def Lamp.flashes (l : Lamp) : Bool := l.onCount ≠ 0 && l.offCount ≠ 0

/-- One 16 Hz tick of a generator (R117). -/
def Lamp.tick (l : Lamp) : Lamp :=
  if l.fresh then { l with fresh := false, phaseOn := true, counter := l.onCount, line := l.onCount ≠ 0 }
  else if !l.flashes then { l with line := l.onCount ≠ 0 }
  else if l.counter ≤ 1 then
    { l with phaseOn := !l.phaseOn, counter := if l.phaseOn then l.offCount else l.onCount, line := !l.phaseOn }
  else { l with counter := l.counter - 1, line := l.phaseOn }

/-- The generator's phase turns at the next tick (R117). -/
def Lamp.turnsNext (l : Lamp) : Bool := !l.fresh && l.flashes && l.counter ≤ 1

/-- One 16 Hz tick of generator l. -/
def Muster.tickLamp (m : Muster) (l : Nat) : Muster := m.setLamp l (m.lamp l).tick

/-! ### Station states (R107). -/

/-- The state that the threshold comparison gives (R107). -/
def threshold (s : StationSettings) (count : Nat) : StationState :=
  if s.capacity ≤ count then .full else if s.capacity * s.nearFull ≤ count * 100 then .nearFull else .taking

/-- A state change takes its effects, but for redirection (R107, effects 1, 2 and 4; R115). -/
def Ev.changeState (n : Nat) (new : StationState) (e : Ev) : Ev :=
  let l := e.muster.live n
  if l.state = new then e else
  let full := if new = .full ∧ l.fullTime = .notYet then .taken e.captured else l.fullTime
  (e.onMuster fun m =>
    let m := m.setLive n { l with state := new, fullTime := full }
    match (m.settings n).bind StationSettings.lamp with
    | none => m
    | some line => m.setLamp line ((m.lamp line).take (lampPattern new))).notice .station

/-- A state change with all its effects (R107). -/
def Ev.setStationState (n : Nat) (new : StationState) (e : Ev) : Ev :=
  if (e.muster.live n).state = new then e else (e.changeState n new).resolve

/-- The state after the threshold comparison, which applies to OPEN, NEAR FULL and FULL (R107). -/
def Muster.compared (m : Muster) (n : Nat) : StationState :=
  match (m.live n).state, m.settings n with
  | .taking, some s | .nearFull, some s | .full, some s => threshold s (m.live n).head
  | st, _ => st

/-- The threshold comparison (R107). -/
def Ev.compare (n : Nat) (e : Ev) : Ev := e.setStationState n (e.muster.compared n)

/-- A head count takes a value, and the comparison follows (R104, R105, R107). -/
def Ev.setHead (n count : Nat) (e : Ev) : Ev :=
  (e.onMuster fun m => m.setLive n { m.live n with head := count }).compare n

/-- The store has found station n's slot damaged (R111). -/
def Ev.stationDamaged (n : Nat) (e : Ev) : Ev := if e.muster.hasStation n then e.setStationState n .notSafe else e

/-! ### Counting (R103, R104). -/

/-- What a decoder hands to the counting. -/
inductive Crossing where
  | inward
  | outward
  | ambiguous
  deriving DecidableEq, Repr

/-- An applied +1 (R104, R115). -/
def Ev.countIn (n : Nat) (e : Ev) : Ev :=
  let l := e.muster.live n
  let first := if l.firstArrival = .notYet then .taken e.captured else l.firstArrival
  (e.onMuster fun m => m.setLive n { l with firstArrival := first }).setHead n (if l.head < 1999 then l.head + 1 else 1999)

/-- An applied −1 (R104). -/
def Ev.countOut (n : Nat) (e : Ev) : Ev :=
  let l := e.muster.live n
  if l.head = 0 then e.onMuster fun m => m.setLive n { l with unmatched := countTo 255 l.unmatched }
  else e.setHead n (l.head - 1)

/-- A crossing or ambiguous result of entrance k is applied in DRILL and MUSTER to the present station its settings name
(R103). -/
def Ev.applyCrossing (k : Nat) (c : Crossing) (e : Ev) : Ev :=
  match (e.muster.entrance k).bind EntranceRec.station with
  | none => e
  | some n =>
    if e.mode.mode = .normal ∨ !e.muster.hasStation n then e else
    match c with
    | .inward => e.countIn n
    | .outward => e.countOut n
    | .ambiguous => e.onMuster fun m => m.setLive n { m.live n with ambiguous := countTo 255 (m.live n).ambiguous }

/-! ### Beam filters (R98). -/

/-- One 64 Hz tick of a filter: it samples its input. -/
def Beam.sample (choice : Nat) (level : Bool) (b : Beam) : Beam :=
  if level = b.blocked then { b with hold := 0 }
  else if choice < b.hold + 1 then { blocked := level, hold := 0 }
  else { b with hold := b.hold + 1 }

/-- The filter choice of entrance k; 0 while it is ABSENT (R98). -/
def Muster.filterChoice (m : Muster) (k : Nat) : Nat := ((m.entrance k).map EntranceRec.filter).getD 0

/-! ### The decoder (R99 to R102). -/

/-- The taken change of one beam at a tick: its new level (R98). -/
abbrev Change := Option Bool

/-- The transition of a decoder at the taken changes of its outer and inner beam, with its crossing (R100). FAULT makes none,
MUDDLED takes every change without one (R101, R102). -/
def DecoderState.next (s : DecoderState) (outer inner : Change) : DecoderState × Option Crossing :=
  match s, outer, inner with
  | s, none, none => (s, none)
  | .fault, _, _ => (.fault, none)
  | .idle, some true, none => (.outer, none)
  | .idle, none, some true => (.inner, none)
  | .outer, none, some true => (.bothIn, none)
  | .outer, some false, none => (.idle, none)
  | .bothIn, some false, none => (.clearingIn, none)
  | .bothIn, none, some false => (.outer, none)
  | .clearingIn, none, some false => (.idle, some .inward)
  | .clearingIn, some true, none => (.bothIn, none)
  | .inner, some true, none => (.bothOut, none)
  | .inner, none, some false => (.idle, none)
  | .bothOut, none, some false => (.clearingOut, none)
  | .bothOut, some false, none => (.inner, none)
  | .clearingOut, some false, none => (.idle, some .outward)
  | .clearingOut, none, some true => (.bothOut, none)
  | _, _, _ => (.muddled, none)

/-- MUDDLED is left for IDLE at the end of a tick at which both taken levels are clear, with an ambiguous result (R101). -/
def settleMuddled (clear : Bool) (p : DecoderState × Option Crossing) : DecoderState × Option Crossing :=
  if p.1 = .muddled && clear then (.idle, some .ambiguous) else p

/-- A stuck timer at a tick (R102). -/
def stuckTick (blocked : Bool) (t : Nat) : Nat := if blocked then countTo 65535 t else 0

/-- What a tick of one entrance has come to: its filters and decoder after it, whether a taken change fell at it, whether it
put the decoder in FAULT or took it out, and the crossing it completed. -/
structure EntranceTick where
  first : Beam
  second : Beam
  decoder : Decoder
  taken : Bool
  faulted : Bool := false
  cleared : Bool := false
  crossing : Option Crossing := none

/-- The change that a filter's tick has made. -/
def changeOf (before after : Beam) : Change := if before.blocked = after.blocked then none else some after.blocked

/-- The decoder of a PRESENT entrance at a tick, its filters having sampled (R99 to R102). -/
def Decoder.tick (swapped : Bool) (first second first' second' : Beam) (d : Decoder) : EntranceTick :=
  let c1 := changeOf first first'
  let c2 := changeOf second second'
  let clear := !first'.blocked && !second'.blocked
  let stuckFirst := stuckTick first'.blocked d.stuckFirst
  let stuckSecond := stuckTick second'.blocked d.stuckSecond
  let taken := c1.isSome || c2.isSome
  if d.state = .fault then
    let clearing := if clear then d.clearing + 1 else 0
    let cleared : Bool := clearing ≥ Config.clearingTicks
    { first := first', second := second', taken, cleared
      decoder := { state := if cleared then .idle else .fault, stuckFirst, stuckSecond
                   clearing := if cleared then 0 else clearing } }
  else if (first'.blocked && stuckFirst = Config.stuckTicks) || (second'.blocked && stuckSecond = Config.stuckTicks) then
    { first := first', second := second', taken, faulted := true
      decoder := { state := .fault, stuckFirst, stuckSecond, clearing := 0 } }
  else
    let p := settleMuddled clear (if swapped then d.state.next c2 c1 else d.state.next c1 c2)
    { first := first', second := second', taken, crossing := p.2
      decoder := { state := p.1, stuckFirst, stuckSecond, clearing := 0 } }

/-- A tick of entrance k with the sampled levels of its two inputs; an ABSENT entrance's decoder takes no changes (R96, R98,
R99). -/
def Muster.entranceTick (m : Muster) (k : Nat) (first second : Bool) : EntranceTick :=
  let b1 := m.beam (2 * k)
  let b2 := m.beam (2 * k + 1)
  let b1' := b1.sample (m.filterChoice k) first
  let b2' := b2.sample (m.filterChoice k) second
  match m.entrance k with
  | none => { first := b1', second := b2', decoder := m.decoder k, taken := (changeOf b1 b1').isSome || (changeOf b2 b2').isSome }
  | some r => (m.decoder k).tick r.swapped b1 b2 b1' b2'

/-- Takes an entrance's tick: filters, decoder, ENTRANCE notice, crossing (R98 to R103). -/
def Ev.takeEntrance (k : Nat) (t : EntranceTick) (e : Ev) : Ev :=
  let e := e.onMuster fun m => ((m.setBeam (2 * k) t.first).setBeam (2 * k + 1) t.second).setDecoder k t.decoder
  let e := if t.faulted then e.notice .entrance else e
  match t.crossing with
  | none => e
  | some c => e.applyCrossing k c

/-- A 64 Hz tick of entrance k. -/
def Ev.tickEntrance (k : Nat) (first second : Bool) (e : Ev) : Ev :=
  e.takeEntrance k (e.muster.entranceTick k first second)

/-! ### Sessions (R112 to R114, R118). -/

/-- The live state with its counts at 0 and its captured times absent. -/
def StationLive.cleared (l : StationLive) : StationLive := { state := l.state }

/-- The present stations, ascending. -/
def Muster.presentStations (m : Muster) : List Nat := (List.range Config.stations).filter m.hasStation

/-- Opens a session (R112). -/
def Ev.openSession (kind : SessionKind) (e : Ev) : Ev :=
  let e := e.onMuster fun m =>
    (List.range Config.stations).foldl (fun m n => m.setLive n (m.live n).cleared) { m with session := some kind, roll := none }
  let opened := e.muster.presentStations.foldl (fun e n =>
    match (e.muster.live n).state, e.muster.settings n with
    | .standby, some s => e.changeState n (threshold s 0)
    | _, _ => e) e
  opened.resolve

/-- A captured time as the roll or an answer shows it. -/
def Capture.time : Capture → Option ShipTime
  | .notYet => none
  | .taken t => t

/-- A row of the roll (R114). -/
def Muster.rollRow (m : Muster) (n : Nat) : RollRow :=
  let l := m.live n
  { state := l.state, head := l.head, expected := m.expected n, assistance := m.assistance n, unmatched := l.unmatched,
    ambiguous := l.ambiguous, firstArrival := l.firstArrival.time, fullTime := l.fullTime.time }

/-- Freezes the roll: one row for each present station (R114). -/
def Muster.freeze (m : Muster) (kind : SessionKind) : Roll :=
  { kind, rows := m.presentStations.map fun n => (n, some (m.rollRow n)) }

/-- Every present station but an UNSAFE one becomes STANDBY, with the effects of a state change (R114, R118). -/
def Ev.standDown (e : Ev) : Ev :=
  (e.muster.presentStations.foldl (fun e n =>
    if (e.muster.live n).state = .notSafe then e else e.changeState n .standby) e).resolve

/-- Closes the session, freezing the roll (R114). -/
def Ev.closeSession (e : Ev) : Ev :=
  (e.onMuster fun m => { m with roll := m.session.map m.freeze, session := none }).standDown

/-- The Muster Unit takes a mode change, the new mode being in force (R112, R113, R114). -/
def Ev.musterModeChange (old : Mode) (e : Ev) : Ev :=
  match old, e.mode.mode with
  | .normal, .drill => e.openSession .drill
  | .normal, .muster => e.openSession .muster
  | .drill, .muster => e.onMuster fun m => { m with session := some .muster }
  | .drill, .normal | .muster, .normal => e.closeSession
  | _, _ => e

/-- RESTART: decoders IDLE, hold counts 0, no session, stations STANDBY unless UNSAFE, lamps anew (R117, R118). -/
def Ev.musterRestart (e : Ev) : Ev :=
  let e := e.onMuster fun m =>
    { m with decoders := [], session := none
             beams := m.beams.filterMap fun p => if p.2.blocked then some (p.1, { p.2 with hold := 0 }) else none }
  e.standDown.onMuster fun m =>
    (List.range Config.lamps).foldl (fun m l => m.setLamp l ((m.lamp l).take (m.patternOf (m.lamp l).owner))) m

end Sys2Proof.Machine
end

