-- ==== Sys2Proof/Machine/CabinOps.lean ====
section
/-! DEFINITION. The Cabin Table's operations: summaries, the service-change list, tag reports, greeting expiry (R119 to
R133). -/

namespace Sys2Proof.Machine

/-- The record of a cabin slot, as its words hold it. -/
def Store.cabinRec (st : Store) (n : Nat) : CabinRec := Table.get {} st.cabins n

/-- Writes the record of a cabin slot. -/
def Store.writeCabin (st : Store) (n : Nat) (r : CabinRec) : Store := { st with cabins := Table.set {} st.cabins n r }

/-- Cabin n's summary (R120). -/
def CabinTable.summary (c : CabinTable) (n : Nat) : Option Summary := Table.get none c.summaries n

/-- Writes cabin n's summary. -/
def CabinTable.setSummary (n : Nat) (s : Option Summary) (c : CabinTable) : CabinTable :=
  { c with summaries := Table.set none c.summaries n s }

/-- A change of the Cabin Table's own state inside an event. -/
def Ev.onCabins (f : CabinTable → CabinTable) (e : Ev) : Ev := { e with cabinTable := f e.cabinTable }

/-- The summary of a record (R120). -/
def CabinRec.summary (r : CabinRec) : Summary :=
  { service := r.service, bank := r.bank, expiry := r.greeting.bind Greeting.expiry }

/-- The roster entry of a record (R106). -/
def CabinRec.roster (r : CabinRec) : RosterEntry := { station := r.station, berths := r.berths, assist := r.assist }

/-- The words that hold label, node, station, berths, assist, bank and service (R2, R119). -/
def cabinHead (n : Nat) : List Nat := (List.range 2).map (slotWord .cabin n)

/-- The words that hold the occupant line (R2). -/
def cabinOccupant (n : Nat) : List Nat := (List.range 8).map fun j => slotWord .cabin n (2 + j)

/-- The words that hold the greeting with its expiry (R2). -/
def cabinGreeting (n : Nat) : List Nat := (List.range 18).map fun j => slotWord .cabin n (10 + j)

/-- A differing report on the service-change list: in the cabin's place, or at the tail (R129). -/
def listService (n : Nat) (s : Service) (list : List ServiceChange) : List ServiceChange :=
  if list.any fun e => e.cabin = n then list.map fun e => if e.cabin = n then { e with service := s } else e
  else list ++ [{ cabin := n, service := s }]

/-- Sets the service copy of a summary. -/
def CabinTable.setService (n : Nat) (s : Service) (c : CabinTable) : CabinTable :=
  c.setSummary n ((c.summary n).map fun m => { m with service := s })

/-- A tag report (R127). -/
def Ev.tagReport (n : Nat) (s : Service) (e : Ev) : Ev :=
  if !e.store.present .cabin n then e
  else if (e.cabinTable.summary n).map Summary.service = some s then e
  else
    let e :=
      match e.read (.slot .cabin n) (cabinHead n) with
      | (e, .content) =>
        e.onStore fun st => (st.writeCabin n { st.cabinRec n with service := s }).changeSlot .cabin n (cabinHead n)
      | (e, _) => e
    (e.onCabins fun c => { c.setService n s with service := listService n s c.service }).tell (.cabin n)

/-- The expiry copy becomes absent. -/
def CabinTable.clearExpiry (n : Nat) (c : CabinTable) : CabinTable :=
  c.setSummary n ((c.summary n).map fun m => { m with expiry := none })

/-- The greeting of cabin n has expired (R131). -/
def Ev.expireGreeting (n : Nat) (e : Ev) : Ev :=
  match e.read (.slot .cabin n) (cabinGreeting n) with
  | (e, .content) =>
    ((e.onStore fun st => (st.writeCabin n { st.cabinRec n with greeting := none }).changeSlot .cabin n (cabinGreeting n)).onCabins
      (CabinTable.clearExpiry n)).tell (.cabin n)
  | (e, _) => e.onCabins (CabinTable.clearExpiry n)

/-- The cabins whose greeting is due to expire, in ascending index, an order that R70 and R131 leave open: DESIGN CHOICE (R131;
log 38). -/
def CabinTable.due (c : CabinTable) (now : Nat) : List Nat :=
  c.summaries.filterMap fun p => if p.2.any fun m => m.expiry.any (· ≤ now) then some p.1 else none

/-- The Cabin Table's part of a clock event (R70, R131). -/
def Ev.cabinClock (e : Ev) : Ev :=
  match e.now with
  | none => e
  | some n => (e.cabinTable.due n).foldl (fun e c => e.expireGreeting c) e

end Sys2Proof.Machine
end

