-- ==== Sys2Proof/Machine/LinkOps.lean ====
section
/-! DEFINITION. The Panel Link's operations on both channels (R162 to R177). -/

namespace Sys2Proof.Machine

/-! ### The screen channel. -/

/-- A change of the screen channel inside an event. -/
def Ev.onScr (f : ScreenChannel → ScreenChannel) (e : Ev) : Ev := { e with scr := f e.scr }

/-- Screen n's link record. -/
def ScreenChannel.link (c : ScreenChannel) (n : Nat) : ScreenLink := Table.get {} c.links n

/-- The content record of screen n. -/
def Composer.screen (c : Composer) (n : Nat) : PanelContent := Table.get {} c.screens n

/-- The content record of tag n. -/
def Composer.tag (c : Composer) (n : Nat) : PanelContent := Table.get {} c.tags n

/-- The screen is in the kiosk rotation (R166). -/
def ScreenLink.inRotation (l : ScreenLink) : Bool := l.presence = .kiosk && !l.silent && !l.paused

/-- The screen is waiting (R162). -/
def ScreenLink.isWaiting (l : ScreenLink) (composed : Nat) : Bool := !l.silent && !l.paused && l.acked ≠ some composed

/-- Changes a link record; a kiosk's poll falls due when it enters the rotation, and is due no more once it has left it
(R166). -/
def ScreenChannel.update (n : Nat) (f : ScreenLink → ScreenLink) (c : ScreenChannel) : ScreenChannel :=
  let before := c.link n
  let after := f before
  { c with
    links := Table.set {} c.links n after
    kioskDue :=
      if !after.inRotation then c.kioskDue.filter (· ≠ n)
      else if before.inRotation || c.kioskDue.contains n then c.kioskDue
      else c.kioskDue ++ [n] }

/-- A waiting screen that is not queued joins the send queue at the tail (R163). -/
def Ev.joinSend (n : Nat) (e : Ev) : Ev :=
  if (e.scr.link n).isWaiting (e.composer.screen n).version && !e.scr.sendQueue.contains n then
    e.onScr fun c => { c with sendQueue := c.sendQueue ++ [n] }
  else e

/-- The screen leaves the send queue (R163). -/
def ScreenChannel.leaveQueue (n : Nat) (c : ScreenChannel) : ScreenChannel :=
  { c with sendQueue := c.sendQueue.filter (· ≠ n) }

/-- The Composer tells the presence and kind of a screen, which also ends a pause (R147, R148, R165). -/
def Ev.tellPresence (n : Nat) (p : ScreenPresence) (e : Ev) : Ev :=
  (e.onScr (ScreenChannel.update n fun l => { l with presence := p, paused := false })).joinSend n

/-- The Composer pauses a screen for damage: it leaves the queue, the rotation, and its probe is not due (R159, R165). -/
def Ev.pauseScreen (n : Nat) (e : Ev) : Ev :=
  e.onScr fun c =>
    { (c.update n fun l => { l with paused := true }).leaveQueue n with probeDue := c.probeDue.filter (· ≠ n) }

/-- A screen becomes SILENT (R164, R166). -/
def Ev.goSilent (n : Nat) (f : ScreenLink → ScreenLink) (e : Ev) : Ev :=
  (e.onScr fun c =>
    { (c.update n fun l => { f l with silent := true }).leaveQueue n with
      silent := c.silent.filter (· ≠ n) ++ [n]
      probeDue := c.probeDue.filter (· ≠ n) }).notice .panel

/-- The transfer in flight on the screen channel has ended. -/
def Ev.endScreenTransfer (e : Ev) : Ev := e.onScr fun c => { c with transfer := none }

/-- A send has been acknowledged with its version: the screen leaves the queue, or moves to its tail; one that the ACK leaves
waiting and that is not queued joins (R163, R164). DESIGN CHOICE: one that a pause and its end have queued anew while its own send
was in flight moves to the tail too, from wherever it stands (log 48). -/
def Ev.sendAcked (n v : Nat) (e : Ev) : Ev :=
  let e := e.endScreenTransfer.onScr (ScreenChannel.update n fun l => { l with acked := some v, attempts := 0 })
  if v = (e.composer.screen n).version then e.onScr (ScreenChannel.leaveQueue n)
  else if e.scr.sendQueue.contains n then
    e.onScr fun c => { c with sendQueue := c.sendQueue.filter (· ≠ n) ++ [n] }
  else e.joinSend n

/-- A send has not been answered (R164). -/
def Ev.sendUnanswered (n : Nat) (e : Ev) : Ev :=
  let e := e.endScreenTransfer
  if 2 ≤ (e.scr.link n).attempts then e.goSilent n fun l => { l with attempts := 0 }
  else e.onScr (ScreenChannel.update n fun l => { l with attempts := l.attempts + 1 })

/-- A probe has been acknowledged (R165; attempts count the sends since the last ACK, R162). -/
def Ev.probeAcked (n v : Nat) (e : Ev) : Ev :=
  (e.endScreenTransfer.onScr fun c =>
    { c.update n fun l => { l with silent := false, acked := some v, attempts := 0 } with
      silent := c.silent.filter (· ≠ n)
      probeDue := c.probeDue.filter (· ≠ n) }).joinSend n

/-- A kiosk poll has not been answered (R166). -/
def Ev.pollUnanswered (n : Nat) (e : Ev) : Ev :=
  let e := e.endScreenTransfer
  if 2 ≤ (e.scr.link n).missedPolls then e.goSilent n fun l => { l with missedPolls := 0 }
  else e.onScr (ScreenChannel.update n fun l => { l with missedPolls := l.missedPolls + 1 })

/-- A kiosk poll has been answered (R166). -/
def Ev.pollAnswered (n : Nat) (e : Ev) : Ev :=
  e.endScreenTransfer.onScr (ScreenChannel.update n fun l => { l with missedPolls := 0 })

/-- The transfer in flight on the screen channel ends with no answer (R164 to R167). -/
def Ev.screenUnanswered (e : Ev) : Ev :=
  match e.scr.transfer with
  | none => e
  | some (.send n _) => e.sendUnanswered n
  | some (.probe _ _) | some (.reply _) => e.endScreenTransfer
  | some (.poll n) => e.pollUnanswered n

/-- The frame of a send or probe (R164, R165, R196). -/
def State.screenFrame (s : State) (n : Nat) : PanelFrame :=
  { address := n, body := .send (s.composer.screen n).version (s.composer.screen n).content }

/-- The due kiosk at the lowest address at or after the rotation pointer, wrapping (R166). -/
def ScreenChannel.nextKiosk (c : ScreenChannel) : Option Nat :=
  let due := (List.range Config.screens).filter fun n => c.kioskDue.contains n
  match due.find? fun n => c.kioskPtr ≤ n with
  | some n => some n
  | none => due.head?

/-- The first due screen in silent-list order (R168). -/
def ScreenChannel.nextProbe (c : ScreenChannel) : Option Nat := c.silent.find? fun n => c.probeDue.contains n

/-- What the screen channel's arbiter chooses when the channel is idle (R168). -/
inductive ScreenChoice where
  | reply (r : DueReply)
  | send (screen : Nat)
  | poll (screen : Nat)
  | probe (screen : Nat)
  deriving DecidableEq, Repr

/-- The arbiter's choice: the due reply, a send, a due kiosk poll, a due probe (R168). -/
def ScreenChannel.choice (c : ScreenChannel) : Option ScreenChoice :=
  if c.transfer.isSome then none else
  match c.reply, c.sendQueue, c.nextKiosk, c.nextProbe with
  | some r, _, _, _ => some (.reply r)
  | none, n :: _, _, _ => some (.send n)
  | none, [], some n, _ => some (.poll n)
  | none, [], none, some n => some (.probe n)
  | none, [], none, none => none

/-- A mode change to DRILL or MUSTER turns a due reply into REFUSED-MUSTER (R167). -/
def Ev.screenModeChange (e : Ev) : Ev :=
  if e.mode.mode = .normal then e
  else e.onScr fun c => { c with reply := c.reply.map fun r => { r with body := .refusedMuster } }

/-- RESTART on the screen channel (R177, steps 1, 3, 4). -/
def Ev.screenRestart (e : Ev) : Ev :=
  let screens := List.range Config.screens
  let e := e.onScr fun c =>
    { c with
      transfer := none, sendQueue := [], silent := [], probeDue := [], reply := none
      links := screens.foldl (fun t n =>
        let l := Table.get {} t n
        Table.set {} t n { presence := l.presence, paused := l.paused, acked := none }) c.links }
  let e := screens.foldl (fun e n => e.joinSend n) e
  e.onScr fun c => { c with kioskDue := screens.filter fun n => (c.link n).inRotation }

/-! ### The tag channel. -/

/-- A change of the tag channel inside an event. -/
def Ev.onTag (f : TagChannel → TagChannel) (e : Ev) : Ev := { e with tag := f e.tag }

/-- Cabin n's tag link record. -/
def TagChannel.link (c : TagChannel) (n : Nat) : TagLink := Table.get {} c.links n

/-- Changes a tag link record. -/
def TagChannel.update (n : Nat) (f : TagLink → TagLink) (c : TagChannel) : TagChannel :=
  { c with links := Table.set {} c.links n (f (c.link n)) }

/-- The tag is in the in-refresh set (R169). -/
def TagChannel.refreshing (c : TagChannel) (n : Nat) : Bool := (c.link n).refresh.isSome

/-- The cabins of the in-refresh set, ascending. -/
def TagChannel.inRefresh (c : TagChannel) : List Nat := (c.links.filter fun p => p.2.refresh.isSome).map Prod.fst

/-- The cabin has a send in flight. -/
def TagChannel.sending (c : TagChannel) (n : Nat) : Bool :=
  match c.transfer with
  | some (.send m _) => m = n
  | _ => false

/-- A cabin joins the routine queue at the tail when it is dirty, IN SERVICE, not refreshing, has no send in flight and is not
queued (R170). -/
def TagChannel.join (n : Nat) (c : TagChannel) : TagChannel :=
  let l := c.link n
  if l.dirty && l.service = .inService && l.refresh.isNone && !c.sending n && !c.routine.contains n then
    { c with routine := c.routine ++ [n] }
  else c

/-- A cabin is offered to the sweep: left for the walk, or at the tail of the sweep list (R175). -/
def TagChannel.offer (n : Nat) (c : TagChannel) : TagChannel :=
  { c with sweep := c.sweep.map fun sw =>
      if sw.walk ≤ n || sw.list.contains n then sw else { sw with list := sw.list ++ [n] } }

/-- The cabin leaves the routine queue. -/
def TagChannel.leaveRoutine (n : Nat) (c : TagChannel) : TagChannel := { c with routine := c.routine.filter (· ≠ n) }

/-- The cabin leaves the routine queue and the sweep list. -/
def TagChannel.leave (n : Nat) (c : TagChannel) : TagChannel :=
  { c.leaveRoutine n with sweep := c.sweep.map fun sw => { sw with list := sw.list.filter (· ≠ n) } }

/-- The Composer has raised a tag's version: the cabin is dirty and joins; in a session it is offered to the sweep (R170,
R175). -/
def TagChannel.raised (n : Nat) (c : TagChannel) : TagChannel :=
  let c := (c.update n fun l => { l with dirty := true }).join n
  let l := c.link n
  if l.service = .inService && l.refresh.isNone && !c.sending n then c.offer n else c

/-- A cabin is placed again: in the routine queue, and in a session it is offered to the sweep (R171, R172, R173; log 23). -/
def TagChannel.place (n : Nat) (c : TagChannel) : TagChannel := (c.join n).offer n

/-- The refresh of a tag is over: its record and its due poll go (R172). -/
def TagChannel.endRefresh (n : Nat) (f : TagLink → TagLink) (c : TagChannel) : TagChannel :=
  { c.update n fun l => { f l with refresh := none } with doneDue := c.doneDue.filter fun d => d.cabin ≠ n }

/-- The transfer in flight on the tag channel has ended. -/
def TagChannel.endTransfer (c : TagChannel) : TagChannel := { c with transfer := none }

/-- A send has been accepted: the refresh record takes the time and, 0.5 s later, that of the first DONE poll (R169, R171, R172; log
44). -/
def TagChannel.accepted (n v now : Nat) (c : TagChannel) : TagChannel :=
  c.endTransfer.update n fun l =>
    { l with missed := 0, refresh := some { version := v, acceptedAt := now, pollAt := now + Config.periodsHalfSecond } }

/-- A DONE poll is sent to a refreshing tag: its next one falls due 0.5 s later (R172; log 44). -/
def TagChannel.polled (n now : Nat) (c : TagChannel) : TagChannel :=
  c.update n fun l => { l with refresh := l.refresh.map fun r => { r with pollAt := now + Config.periodsHalfSecond } }

/-- A send has been answered BUSY (R171). -/
def TagChannel.busy (n : Nat) (c : TagChannel) : TagChannel :=
  (c.endTransfer.update n fun l => { l with missed := 0 }).place n

/-- A send has not been answered (R171). R171 says that a tag made SILENT here 'stays dirty', but the walk also sends to cabins that
are clean (R175): DESIGN CHOICE, `dirty` is left as it stood, yes or no (log 49). -/
def Ev.tagSendUnanswered (n : Nat) (e : Ev) : Ev :=
  if 1 ≤ (e.tag.link n).missed then
    (e.onTag fun c => (c.endTransfer.update n fun l => { l with missed := 0, service := .silent }).leave n).notice .panel
  else e.onTag fun c => (c.endTransfer.update n fun l => { l with missed := l.missed + 1 }).place n

/-- A DONE of a refreshing tag, judged against the composed version (R172). -/
def TagChannel.done (n version composed : Nat) (c : TagChannel) : TagChannel :=
  let clean : Bool := version = composed
  let c := c.endRefresh n fun l => { l with shown := version, dirty := !clean }
  if clean then c.leave n else c.place n

/-- The tag reports DONE (R172). -/
def Ev.tagDone (n : Nat) (e : Ev) : Ev :=
  match (e.tag.link n).refresh with
  | none => e
  | some r => e.onTag (TagChannel.done n r.version (e.composer.tag n).version)

/-- 6 s after ACCEPTED without DONE (R172). R172 says that the cabin 'stays dirty', but the walk also sends to cabins that are clean
(R175): DESIGN CHOICE, `dirty` is left as it stood, yes or no (log 49). -/
def Ev.tagFault (n : Nat) (e : Ev) : Ev :=
  (e.onTag fun c => (c.endRefresh n fun l => { l with service := .fault }).leave n).notice .panel

/-- A tag that has answered a rotation poll returns to service (R173). -/
def TagChannel.returned (n : Nat) (c : TagChannel) : TagChannel :=
  if (c.link n).service = .inService then c
  else (c.update n fun l => { l with service := .inService, missed := 0, dirty := true }).place n

/-- The transfer in flight on the tag channel ends with no answer (R171, R172, R173). -/
def Ev.tagUnanswered (e : Ev) : Ev :=
  match e.tag.transfer with
  | none => e
  | some (.send n _) => e.tagSendUnanswered n
  | some (.donePoll _) | some (.statusPoll _) => e.onTag TagChannel.endTransfer

/-- The DONE poll that fell due earliest, the lowest address among those that fell due together (R174). -/
def earliestDue : List DueDonePoll → Option DueDonePoll
  | [] => none
  | d :: rest =>
    match earliestDue rest with
    | none => some d
    | some b => if d.moment < b.moment ∨ d.moment = b.moment ∧ d.cabin ≤ b.cabin then some d else some b

/-- The cabin that the walk takes (R175). -/
def State.walkTakes (s : State) (walk : Nat) : Option Nat :=
  (List.range Config.cabins).find? fun n =>
    walk ≤ n && s.store.present .cabin n && (s.tag.link n).service = .inService && !s.tag.refreshing n

/-- The cabin that a send takes, and the channel once it has been taken: in NORMAL from the routine queue, in a session from
the walk or the sweep list; an exhausted walk is finished (R171, R175). -/
def State.sendTakes (s : State) : Option Nat × TagChannel :=
  let c := s.tag
  if s.mode.mode = .normal then
    match c.routine.find? fun n => !c.refreshing n with
    | none => (none, c)
    | some n => (some n, c.leaveRoutine n)
  else
    match c.sweep with
    | none => (none, c)
    | some sw =>
      match s.walkTakes sw.walk with
      | some n => (some n, { c with sweep := some { sw with walk := n + 1 } })
      | none =>
        match sw.list with
        | [] => (none, { c with sweep := some { sw with walk := Config.cabins } })
        | n :: rest => (some n, { c with sweep := some { walk := Config.cabins, list := rest } })

/-- The cabin of a rotation poll (R173). -/
def State.rotationTakes (s : State) : Option Nat :=
  let fit := (List.range Config.cabins).filter fun n => s.store.present .cabin n && !s.tag.refreshing n
  match fit.find? fun n => s.tag.rotationPtr ≤ n with
  | some n => some n
  | none => fit.head?

/-- What the tag channel's arbiter chooses when the channel is idle (R174). -/
inductive TagChoice where
  | donePoll (cabin : Nat)
  | send (cabin : Nat)
  | statusPoll (cabin : Nat)
  deriving DecidableEq, Repr

/-- The arbiter's choice and the channel as looking for it leaves it (R174). -/
def State.tagChoice (s : State) : Option TagChoice × TagChannel :=
  let c := s.tag
  if c.transfer.isSome then (none, c) else
  match earliestDue c.doneDue with
  | some d => (some (.donePoll d.cabin), { c with doneDue := c.doneDue.filter (· ≠ d) })
  | none =>
    let (taken, c) := if c.inRefresh.length < Config.maxRefreshing then s.sendTakes else (none, c)
    match taken with
    | some n => (some (.send n), c)
    | none =>
      match if c.rotationDue then s.rotationTakes else none with
      | some n => (some (.statusPoll n), { c with rotationPtr := (n + 1) % Config.cabins, rotationDue := false })
      | none => (none, c)

/-- The service state that a TAG SEND carries (R196; log 20). -/
def State.tagService (s : State) (n : Nat) : Service :=
  if s.store.present .cabin n && !s.store.isDamaged (.slot .cabin n) then
    ((s.cabinTable.summary n).map Summary.service).getD .none
  else .none

/-- The frame of a tag send (R171, R196). -/
def State.tagFrame (s : State) (n : Nat) : PanelFrame :=
  { address := n, body := .tagSend (s.composer.tag n).version (s.tagService n) (s.composer.tag n).content }

/-- The PRESENT cabins, ascending. -/
def Store.presentCabins (st : Store) : List Nat := (List.range Config.cabins).filter (st.present .cabin)

/-- Every one of some cabins is made dirty and joins, in their order. -/
def TagChannel.dirtyAll (ns : List Nat) (c : TagChannel) : TagChannel :=
  ns.foldl (fun c n => (c.update n fun l => { l with dirty := true }).join n) c

/-- The tag channel's step 5 of a mode change event (R176). -/
def Ev.tagModeChange (e : Ev) : Ev :=
  let risen := (List.range Config.cabins).filter e.risen.contains
  let e : Ev := { e.onTag (TagChannel.dirtyAll risen) with risen := [] }
  if e.mode.mode = .normal then
    e.onTag fun c => { c.dirtyAll e.store.presentCabins with suspended := false, sweep := none }
  else e.onTag fun c => { c with suspended := true, sweep := some {} }

/-- A tag link record after RESTART: IN SERVICE, with no missed answer and no refresh (R177, steps 2 and 5). -/
def TagLink.restarted (p : Nat × TagLink) : Option (Nat × TagLink) :=
  let l : TagLink := { shown := p.2.shown, dirty := p.2.dirty }
  if l = ({} : TagLink) then none else some (p.1, l)

/-- RESTART on the tag channel (R177, steps 1, 2, 3, 5). -/
def Ev.tagRestart (e : Ev) : Ev :=
  let cleared := e.onTag fun c =>
    { c with
      transfer := none, doneDue := [], routine := [], suspended := false, sweep := none, rotationDue := false
      links := c.links.filterMap TagLink.restarted }
  cleared.onTag (TagChannel.dirtyAll e.store.presentCabins)

end Sys2Proof.Machine
end

