-- ==== Sys2Proof/Machine/ClockOps.lean ====
section
/-! DEFINITION. The divider of the three taps and the ship clock's own arithmetic (R63 to R69). -/

namespace Sys2Proof.Machine

/-- The divider of the three taps: reference periods into the second (R63). -/
def TimeBase.divider (t : TimeBase) : Nat := t.refCount % Config.periods1

/-- A 64 Hz tick of the divider: 512 periods on, and a tick of the 16 Hz and of the 1 Hz tap falls where the divider has passed
a whole number of their periods (R63). -/
def TimeBase.advance (t : TimeBase) : TimeBase :=
  let t := { t with refCount := t.refCount + Config.periods64 }
  { t with due16 := t.divider % Config.periods16 == 0, due1 := t.divider == 0 }

/-- The last value of the clock's range. -/
def ShipTime.isLast (t : ShipTime) : Bool := t.day = 99 && t.minute = 1439 && t.second = 59

/-- One second on, below the last value (R65). -/
def ShipTime.tick (t : ShipTime) : ShipTime :=
  if t.second < 59 then { t with second := t.second + 1 }
  else if t.minute < 1439 then { t with minute := t.minute + 1, second := 0 }
  else { day := t.day + 1, minute := 0, second := 0 }

/-- What a 1 Hz tick would do to the clock (R65, R66). -/
inductive TickEffect where
  | nothing
  | seconds
  | minuteBoundary
  | limit
  deriving DecidableEq, Repr

/-- The effect of the 1 Hz tick that meets the clock as it stands (R65, R66). -/
def Clock.tickEffect : Clock → TickEffect
  | .running t => if t.isLast then .limit else if t.second < 59 then .seconds else .minuteBoundary
  | _ => .nothing

/-- The clock after a 1 Hz tick (R65, R66). -/
def Clock.tick : Clock → Clock
  | .running t => if t.isLast then .atLimit t else .running t.tick
  | c => c

/-- The value at a voyage minute and a second (R69). -/
def timeAt (voyage second : Nat) : ShipTime := { day := voyage / 1440, minute := voyage % 1440, second }

/-- A set value in range (R67). -/
def setClockTime (a : SetClock) : Option ShipTime :=
  if a.day ≤ 99 ∧ a.minute ≤ 1439 ∧ a.second ≤ 59 then some { day := a.day, minute := a.minute, second := a.second } else none

/-- The amounts of a shift (R68). -/
def shiftAmount (k : Nat) : Bool := k % 15 = 0 && inRange 15 180 k

/-- The clock after an ADVANCE by k, from a value; AT LIMIT holds the last minute, so an ADVANCE there passes it (R69). -/
def advance (t : ShipTime) (k : Nat) : Clock :=
  let v := t.voyage + k
  if Config.lastMinute < v then .atLimit (timeAt Config.lastMinute t.second) else .running (timeAt v t.second)

/-- The clock after a RETARD by k, from a value (R69). -/
def retard (t : ShipTime) (k : Nat) : Clock := .running (timeAt (t.voyage - k) t.second)

/-- Sets the clock inside an event. -/
def Ev.setClock (c : Clock) (e : Ev) : Ev := { e with time := { e.time with clock := c } }

/-- A change that has made the clock AT LIMIT sets the CLOCK notice (R66). -/
def Ev.noticeLimit (before : Clock) (e : Ev) : Ev :=
  match before, e.time.clock with
  | .atLimit _, _ => e
  | _, .atLimit _ => e.notice .clock
  | _, _ => e

end Sys2Proof.Machine
end

