-- ==== Sys2Proof/Machine/GraphOps.lean ====
section
/-! DEFINITION. The Graph Table's operations: the reference index and its counts, reference checks, traversability (R25 to
R29). -/

namespace Sys2Proof.Machine

/-! ### The reference index (R25). -/

/-- Segment s's entry. -/
def Graph.segment (g : Graph) (s : Nat) : Option SegRef := Table.get none g.refSegments s

/-- Target t's entry. -/
def Graph.target (g : Graph) (t : Nat) : Option TargetRef := Table.get none g.refTargets t

/-- Target t's node, as the index gives it. -/
def Graph.targetNode (g : Graph) (t : Nat) : Option Nat := (g.target t).map TargetRef.node

/-- Station n's node, as the index gives it. -/
def Graph.stationNode (g : Graph) (n : Nat) : Option Nat := Table.get none g.refStations n

/-- Screen n's entry. -/
def Graph.screen (g : Graph) (n : Nat) : Option ScreenRef := Table.get none g.refScreens n

/-- Cabin n's nearest node. -/
def Graph.cabinNode (g : Graph) (n : Nat) : Option Nat := Table.get none g.refCabins n

/-- Entry n's entry. -/
def Graph.entry (g : Graph) (n : Nat) : Option EntryRef := Table.get none g.refEntries n

/-- The index entry of a segment record: every field but the availability. -/
def SegRec.ref (r : SegRec) : SegRef :=
  { endA := r.endA, endB := r.endB, length := r.length, kind := r.kind, direction := r.direction, arrowA := r.arrowA,
    arrowB := r.arrowB }

def Graph.setSegment (s : Nat) (r : Option SegRef) (g : Graph) : Graph :=
  { g with refSegments := Table.set none g.refSegments s r }
def Graph.setTarget (t : Nat) (r : Option TargetRef) (g : Graph) : Graph :=
  { g with refTargets := Table.set none g.refTargets t r }
def Graph.setStation (n : Nat) (r : Option Nat) (g : Graph) : Graph :=
  { g with refStations := Table.set none g.refStations n r }
def Graph.setScreen (n : Nat) (r : Option ScreenRef) (g : Graph) : Graph :=
  { g with refScreens := Table.set none g.refScreens n r }
def Graph.setCabin (n : Nat) (r : Option Nat) (g : Graph) : Graph :=
  { g with refCabins := Table.set none g.refCabins n r }
def Graph.setEntry (n : Nat) (r : Option EntryRef) (g : Graph) : Graph :=
  { g with refEntries := Table.set none g.refEntries n r }

/-- The entries of a table of the index for which `p` holds. -/
def countRefs {α : Type} (p : α → Bool) (t : Table (Option α)) : Nat := (t.filter fun e => e.2.any p).length

/-- A node's reference count divided by kind: segment ends, targets, stations, screens, cabins (R25, R36). -/
structure NodeRefs where
  segmentEnds : Nat
  targets : Nat
  stations : Nat
  screens : Nat
  cabins : Nat
  deriving DecidableEq, Repr

/-- The references to a node (R25). -/
def Graph.nodeRefs (g : Graph) (n : Nat) : NodeRefs :=
  { segmentEnds := countRefs (fun r => r.endA = n) g.refSegments + countRefs (fun r => r.endB = n) g.refSegments
    targets := countRefs (fun r => r.node = n) g.refTargets
    stations := countRefs (· = n) g.refStations
    screens := countRefs (fun r => r.node = n) g.refScreens
    cabins := countRefs (· = n) g.refCabins }

/-- The node reference count (R25). -/
def NodeRefs.total (r : NodeRefs) : Nat := r.segmentEnds + r.targets + r.stations + r.screens + r.cabins

/-- The counts as a refusal or READ REFERENCES carries them (R27, R36; log 14). -/
def NodeRefs.bytes (r : NodeRefs) : List Byte :=
  num2 r.segmentEnds ++ num1 r.targets ++ num1 r.stations ++ num1 r.screens ++ num2 r.cabins

/-- A target's screen listings (R25). -/
def Graph.screenListings (g : Graph) (t : Nat) : Nat := countRefs (fun r => r.targets.contains t) g.refScreens

/-- A target's venue uses (R25). -/
def Graph.venueUses (g : Graph) (t : Nat) : Nat := countRefs (fun r => r.venue = some t) g.refEntries

/-- A target's counts as a refusal or READ REFERENCES carries them (R27, R36). -/
def Graph.targetCounts (g : Graph) (t : Nat) : List Byte := num1 (g.screenListings t) ++ num2 (g.venueUses t)

/-! ### Reference checks (R26). -/

/-- A node named by the request is absent. -/
def Store.nodeCheck (st : Store) (n : Nat) : Check := { refuses := !st.present .node n, status := .reference }

/-- A venue: an absent target is refused with REFERENCE, a target that is no VENUE with RANGE (R26). -/
def State.venueChecks (s : State) (venue : Option Nat) : List Check :=
  match venue with
  | none => []
  | some t =>
    [ { refuses := !s.store.present .target t, status := .reference },
      { refuses := (s.graph.target t).map TargetRef.kind ≠ some .venue, status := .range } ]

/-! ### Traversability (R28). -/

/-- What the availability allows (R28, the table). -/
def availabilityAllows : Availability → Mode → Bool
  | .openAll, _ => true
  | .closed, _ => false
  | .musterOnly, m => m ≠ .normal
  | .normalOnly, m => m = .normal

/-- The direction allows a walk from x to y, the ends being x and y in either order (R28, conditions 2 and 3). -/
def SegRec.leads (r : SegRec) (x y : Nat) : Bool :=
  (r.endA = x && r.endB = y && r.direction ≠ .bToA) || (r.endB = x && r.endA = y && r.direction ≠ .aToB)

/-- Conditions 4 and 5 of R28. -/
def SegRec.walkable (r : SegRec) (m : Mode) : Bool := availabilityAllows r.availability m && (r.kind ≠ .lift || m = .normal)

/-- A present and undamaged segment with this record is traversable from x to y in a mode (R28). -/
def SegRec.traversable (r : SegRec) (m : Mode) (x y : Nat) : Bool := r.leads x y && r.walkable m

/-- The record of a segment slot, as its words hold it. -/
def Store.segRec (st : Store) (k : Nat) : SegRec := Table.get {} st.segments k

/-- Segment s of the store is traversable from x to y in a mode (R28). -/
def Store.traversable (st : Store) (m : Mode) (s x y : Nat) : Bool :=
  st.present .segment s && !st.isDamaged (.slot .segment s) && (st.segRec s).traversable m x y

/-- The classes that a mode change makes not traversable (R29). -/
def closedByChange (kind : SegKind) (availability : Availability) (old new : Mode) : Bool :=
  if old = .normal ∧ new ≠ .normal then kind = .lift || availability = .normalOnly
  else if old ≠ .normal ∧ new = .normal then availability = .musterOnly && kind ≠ .lift
  else false

/-- The kind of segment s, as the index gives it (R25). -/
def Graph.segmentKind (g : Graph) (s : Nat) : Option SegKind := (g.segment s).map SegRef.kind

/-- Segment s belongs to a class that a mode change makes not traversable: its kind from the index, its availability from the
store (R25, R29). -/
def State.closedByChange (s : State) (old new : Mode) (k : Nat) : Bool :=
  (s.graph.segmentKind k).any fun kind => Machine.closedByChange kind (s.store.segRec k).availability old new

/-- The segments whose availability a mode change reads: where it opens or closes a class, each PRESENT segment with a clear
flag that is no LIFT, whose class its kind does not settle (R25, R29; log 19). -/
def State.judgedByChange (s : State) (old new : Mode) : List Nat :=
  if (old = .normal) = (new = .normal) then []
  else (List.range Config.segments).filter fun k =>
    s.store.present .segment k && !s.store.isDamaged (.slot .segment k) && s.graph.segmentKind k ≠ some .lift

end Sys2Proof.Machine
end

