-- ==== Sys2Proof/Machine/ProgrammeOps.lean ====
section
/-! DEFINITION. The Programme Table and Evaluator: the schedule, condition states, evaluation, retirement, the capture of
cancellation minutes, listing order (R74 to R92). -/

namespace Sys2Proof.Machine

/-- The condition state for now `n` (R76). -/
def conditionState (n start finish lead : Nat) : EntryState :=
  if n + lead < start then .scheduled else if n < start then .soon else if n < finish then .running else .ended

/-- A state's place in the order SCHEDULED, SOON, RUNNING, ENDED; CANCELLED stands outside it and is kept (R76, R77). -/
def EntryState.rank : EntryState → Nat
  | .scheduled => 0
  | .soon => 1
  | .running => 2
  | .ended => 3
  | .cancelled => 4

/-- The later of two states (R77). -/
def laterState (a b : EntryState) : EntryState := if a.rank < b.rank then b else a

/-- A row's condition state (R76). -/
def ScheduleRow.condition (r : ScheduleRow) (n : Nat) : EntryState := conditionState n r.start r.finish r.lead

/-- A row after the evaluation for now `n` (R77). -/
def ScheduleRow.evaluate (n : Nat) (r : ScheduleRow) : ScheduleRow :=
  let s := laterState r.state (r.condition n)
  if r.state = .cancelled ∨ s = r.state then r else { r with state := s, since := some n }

/-- The retirement condition (R78). -/
def ScheduleRow.isOver (n linger : Nat) (r : ScheduleRow) : Bool :=
  match r.state with
  | .ended => r.finish + linger ≤ n
  | .cancelled => r.cancelled.any fun c => c + linger ≤ n
  | _ => false

/-- The row of an entry. -/
def Programme.row (p : Programme) (h : Nat) : Option ScheduleRow := Table.get none p.schedule h

/-- Writes a row. -/
def Programme.setRow (h : Nat) (r : Option ScheduleRow) (p : Programme) : Programme :=
  { p with schedule := Table.set none p.schedule h r }

/-- The rows with their handles, in ascending handle. -/
def Programme.rows (p : Programme) : List (Nat × ScheduleRow) :=
  p.schedule.filterMap fun e => e.2.map fun r => (e.1, r)

/-- A change of the Programme Table's own state inside an event. -/
def Ev.onProg (f : Programme → Programme) (e : Ev) : Ev := { e with prog := f e.prog }

/-- A change of the reference index inside an event. -/
def Ev.onGraph (f : Graph → Graph) (e : Ev) : Ev := { e with graph := f e.graph }

/-- The record of an entry slot, as its words hold it. -/
def Store.entryRec (st : Store) (h : Nat) : EntryRec := Table.get {} st.entries h

/-- Writes the record of an entry slot. -/
def Store.writeEntry (st : Store) (h : Nat) (r : EntryRec) : Store := { st with entries := Table.set {} st.entries h r }

/-- The evaluation of a row in an event (R77). -/
def Ev.evaluateRow (n : Nat) (e : Ev) (p : Nat × ScheduleRow) : Ev :=
  let r := p.2.evaluate n
  if r = p.2 then e else (e.onProg (Programme.setRow p.1 (some r))).tell .entry

/-- The evaluation of every row (R77). -/
def Ev.evaluate (n : Nat) (e : Ev) : Ev := e.prog.rows.foldl (Ev.evaluateRow n) e

/-- Retirement is a removal of the slot (R78). -/
def Ev.retireEntry (h : Nat) (e : Ev) : Ev :=
  (((e.onStore fun st => st.removeSlot .entry h).onGraph (Graph.setEntry h none)).onProg (Programme.setRow h none)).tell
    .entry

/-- Retires each row whose retirement condition holds, with the present linger (R78). -/
def Ev.retireDue (n : Nat) (e : Ev) : Ev :=
  e.prog.rows.foldl (fun e p => if p.2.isOver n e.prog.linger then e.retireEntry p.1 else e) e

/-- The capture of one row's cancellation minute, with the partial change of the stored field (R85). -/
def Ev.captureRow (n : Nat) (e : Ev) (p : Nat × ScheduleRow) : Ev :=
  if !p.2.capturePending then e else
  let e := e.onProg (Programme.setRow p.1 (some { p.2 with cancelled := some n, since := some n, capturePending := false }))
  let words := [slotWord .entry p.1 11]
  match e.read (.slot .entry p.1) words with
  | (e, .content) =>
    e.onStore fun st => (st.writeEntry p.1 { st.entryRec p.1 with cancelled := some n }).changeSlot .entry p.1 words
  | (e, _) => e

/-- The captures of a SET CLOCK, in ascending handle, an order that R85 leaves open: DESIGN CHOICE (R85; log 38). -/
def Ev.capture (n : Nat) (e : Ev) : Ev := e.prog.rows.foldl (Ev.captureRow n) e

/-- The Programme Evaluator's part of a clock event (R70, R77, R78, R85). -/
def Ev.programmeClock (bySet : Bool) (e : Ev) : Ev :=
  match e.now with
  | none => e
  | some n => ((if bySet then e.capture n else e).evaluate n).retireDue n

/-- The row of an entry record with a state (R75). -/
def EntryRec.row (r : EntryRec) (state : EntryState) (since : Option Nat) : ScheduleRow :=
  { state, since, start := r.start, finish := r.start + r.duration, lead := r.lead, cancelled := r.cancelled,
    capturePending := false }

/-- The state that timing gives now: the condition state, or SCHEDULED while the clock is UNSET (R81, R83). -/
def EntryRec.stateNow (r : EntryRec) (now : Option Nat) : EntryState :=
  match now with
  | none => .scheduled
  | some n => conditionState n r.start (r.start + r.duration) r.lead

/-- The entry would be over now, linger included (R79 step 7, R83). -/
def EntryRec.isOver (r : EntryRec) (now : Option Nat) (linger : Nat) : Bool :=
  now.any fun n => r.start + r.duration + linger ≤ n

/-- The row after a change of timing: the state is re-derived, and its time is now where the state changes (R83). -/
def ScheduleRow.retimed (old : ScheduleRow) (r : EntryRec) (now : Option Nat) : ScheduleRow :=
  let state := match now with | none => old.state | some _ => r.stateNow now
  { old with state, since := if state = old.state then old.since else now, start := r.start, finish := r.start + r.duration,
             lead := r.lead }

/-- Inserts a row by start, behind those with the same start. -/
def insertByStart (p : Nat × ScheduleRow) : List (Nat × ScheduleRow) → List (Nat × ScheduleRow)
  | [] => [p]
  | q :: rest => if q.2.start < p.2.start then q :: insertByStart p rest else p :: q :: rest

/-- Listing order: by start, then by handle (R89). -/
def listingOrder : List (Nat × ScheduleRow) → List (Nat × ScheduleRow)
  | [] => []
  | p :: rest => insertByStart p (listingOrder rest)

/-- The lowest free handle (R79, R90). -/
def Store.freeHandle (st : Store) : Option Nat := (List.range Config.entries).find? fun h => !st.present .entry h

end Sys2Proof.Machine
end

