-- ==== Sys2Proof/Machine/RouteOps.lean ====
section
/-! DEFINITION. The Route Engine's operations: costs, chains, withdrawal, the recompute queue, the engine, the computed column
(R41 to R58). -/

namespace Sys2Proof.Machine

/-! ### Costs and walking minutes (R41, R61). -/

/-- A kind's factor, in quarters (R41). -/
def kindFactor : SegKind → Nat
  | .corridor => 4
  | .openDeck => 5
  | .ramp => 6
  | .lift => 8
  | .stair => 12

/-- The cost of a segment (R41). -/
def segmentCost (length : Nat) (kind : SegKind) : Nat := (length * kindFactor kind + 3) / 4

/-- Walking minutes: a number, or the phrase in its place (R61). -/
inductive Walking where
  | minutes (n : Nat)
  | phrase (p : Nat)
  deriving DecidableEq, Repr

/-- The walking minutes for a distance in a mode (R61). -/
def walking (m : Mode) (d : Option Nat) : Walking :=
  match d with
  | none => .phrase (if m = .normal then 11 else 1)
  | some 0 => .phrase 2
  | some d => if d ≤ 4425 then .minutes ((d + 74) / 75) else .phrase 3

/-! ### Columns and the queue (R43, R49 to R52). -/

/-- A column's state. -/
def Routes.col (r : Routes) (t : Nat) : ColState := Table.get .empty r.cols t

/-- Sets a column's state. -/
def Routes.setCol (t : Nat) (c : ColState) (r : Routes) : Routes := { r with cols := Table.set .empty r.cols t c }

/-- The column is queued. -/
def Routes.isQueued (r : Routes) (t : Nat) : Bool := r.queue.any fun q => q.column = t

/-- The column is being computed. -/
def Routes.inFlight (r : Routes) (t : Nat) : Bool := r.engine.any fun c => c.column = t

/-- Inserts a column by joining order. -/
def insertByOrder (q : QueuedCol) : List QueuedCol → List QueuedCol
  | [] => [q]
  | p :: rest => if p.order ≤ q.order then p :: insertByOrder q rest else q :: p :: rest

/-- The queue in joining order. -/
def byOrder : List QueuedCol → List QueuedCol
  | [] => []
  | q :: rest => insertByOrder q (byOrder rest)

/-- The order of the queue in a mode: joining order, in DRILL and MUSTER the station columns ahead (R50). -/
def orderQueue (m : Mode) (queue : List QueuedCol) : List QueuedCol :=
  match m with
  | .normal => byOrder queue
  | _ => byOrder (queue.filter (·.column < 16)) ++ byOrder (queue.filter (16 ≤ ·.column))

/-- Renumbers the joining orders 0, 1, 2 and so on, keeping their order (R49). -/
def renumber (queue : List QueuedCol) : List QueuedCol :=
  queue.map fun q => { q with order := (queue.filter (·.order < q.order)).length }

/-- The engine takes the head of the queue, or becomes IDLE (R52). -/
def Routes.takeHead (r : Routes) : Routes :=
  match r.queue with
  | [] => { r with engine := none }
  | q :: rest => { r with queue := rest, engine := some { column := q.column } }

/-- An IDLE engine takes the column that joins at once (R52). -/
def Routes.kick (r : Routes) : Routes := if r.engine.isNone then r.takeHead else r

/-- A column takes its place at the tail of its class with the next joining order (R49, R50). -/
def Routes.enqueue (m : Mode) (t : Nat) (r : Routes) : Routes :=
  let r := if 65535 ≤ r.joinCount then { r with queue := renumber r.queue, joinCount := r.queue.length }
    else { r with joinCount := r.joinCount + 1 }
  { r with queue := orderQueue m (r.queue ++ [{ column := t, order := r.joinCount }]) }

/-- A column joins the queue unless it is queued or being computed (R49, R52). -/
def Routes.join (m : Mode) (t : Nat) (r : Routes) : Routes :=
  if r.isQueued t || r.inFlight t then r else (r.enqueue m t).kick

/-- A computation ends: the engine takes the next head, or becomes IDLE (R52). The ROUTES notice is the event's (R57). -/
def Routes.endComputation (r : Routes) : Routes := { r with engine := none }.takeHead

/-- A computation in flight is overtaken (R54). -/
def Routes.overtake (r : Routes) : Routes :=
  { r with engine := r.engine.map fun c => { c with overtaken := true } }

/-- A change of the Route Engine's own state inside an event. -/
def Ev.onRoutes (f : Routes → Routes) (e : Ev) : Ev := { e with routes := f e.routes }

/-- Column t is marked STALE: the Composer is told of a column that was VALID, and the column joins the queue (R49). -/
def Ev.markColumn (t : Nat) (e : Ev) : Ev :=
  let told := if e.routes.col t = .valid then e.tell (.column t) else e
  told.onRoutes fun r => (r.setCol t .stale).join e.mode.mode t

/-- The present columns, in ascending number (R43, R49). -/
def Routes.presentColumns (r : Routes) : List Nat := (List.range Config.targets).filter fun t => r.col t ≠ .empty

/-- Every present column is marked STALE (R49). -/
def Ev.markAll (e : Ev) : Ev := e.routes.presentColumns.foldl (fun e t => e.markColumn t) e

/-- A graph change marks every present column STALE and a column in flight overtaken (R49, R54). -/
def Ev.graphChanged (e : Ev) : Ev := (e.onRoutes Routes.overtake).markAll

/-! ### Chains (R44). -/

/-- The end of segment s that is not x, as the index describes it (R44). -/
def Graph.otherEnd (g : Graph) (s x : Nat) : Option Nat := (g.segment s).map fun r => if r.endA = x then r.endB else r.endA

/-- A set of broken hops: segment, from, to (R45). -/
abbrev BrokenHops := Nat → Nat → Nat → Bool

/-- The chain of the cell at x of column t, its target node `goal`, contains a broken hop or passes through a node of `bad`; a
chain has at most 191 hops (R44). -/
def chainBroken (st : Store) (g : Graph) (t goal : Nat) (bad : List Nat) (broken : BrokenHops) : Nat → Nat → Bool
  | 0, _ => true
  | fuel + 1, x =>
    bad.contains x ||
      (x ≠ goal &&
        match (st.cell t x).next with
        | none => true
        | some s =>
          match g.otherEnd s x with
          | none => true
          | some y => broken s x y || chainBroken st g t goal bad broken fuel y)

/-- The nodes of the present cells of a column, ascending (R42). -/
def Store.presentCells (st : Store) (t : Nat) : List Nat :=
  (List.range Config.nodes).filter fun x => (st.cell t x).dist.isSome

/-- A withdrawal reads a present cell; a damaged cell joins it, with the STORE notice of a finding (R6, R45). -/
def Ev.readCellFor (t : Nat) (p : Ev × List Nat) (x : Nat) : Ev × List Nat :=
  match p.1.store.read (.cell t x) [cellWord t x] with
  | (st, .content) => ({ p.1 with store := st }, p.2)
  | (st, .damaged) => ({ p.1 with store := st }, p.2 ++ [x])
  | (st, .finding) => ({ p.1 with store := st }.notice .store, p.2 ++ [x])

/-- A withdrawal in column t, which is not EMPTY: the present cells whose chains hold a broken hop, or pass through a node of
`bad` or through a cell that its own reads find damaged, are written empty, and damaged cells mark the column (R45, R47).
`g` gives the ends as they stood before the cause. -/
def Ev.withdrawColumn (g : Graph) (bad : List Nat) (broken : BrokenHops) (t : Nat) (e : Ev) : Ev :=
  if e.routes.col t = .empty then e else
  let xs := e.store.presentCells t
  let (e, found) := xs.foldl (Ev.readCellFor t) (e, [])
  let goal := (g.targetNode t).getD Config.nodes
  let gone := xs.filter (chainBroken e.store g t goal (bad ++ found) broken Config.nodes)
  let written := e.onStore fun st => st.emptyCells t gone
  let told := if gone.isEmpty then written else written.tell (.column t)
  if found.isEmpty then told else told.markColumn t

/-- A withdrawal in every column (R45). -/
def Ev.withdraw (g : Graph) (broken : BrokenHops) (e : Ev) : Ev :=
  (List.range Config.targets).foldl (fun e t => e.withdrawColumn g [] broken t) e

/-! ### Damage (R39, R47). -/

/-- Segment s has been found damaged: both hops break, every column is marked, a column in flight is overtaken, the Composer
is told (R39). -/
def Ev.segmentDamaged (s : Nat) (e : Ev) : Ev :=
  let ends := ((e.graph.segment s).map fun r => [r.endA, r.endB]).getD []
  ((e.withdraw e.graph fun seg _ _ => seg = s).graphChanged).tell (.segment ends)

/-- Cell (t, x) has been found damaged: it and the cells whose chains pass through x are withdrawn, and a column that is not
EMPTY is marked STALE and joins the queue (R47). -/
def Ev.cellDamaged (t x : Nat) (e : Ev) : Ev :=
  let e := e.withdrawColumn e.graph [x] (fun _ _ _ => false) t
  let e := e.onStore fun st => st.emptyCells t [x]
  if e.routes.col t = .empty then e else (e.tell (.column t)).markColumn t

/-! ### Targets (R34, R35, R43, R51, R55). -/

/-- A computation has ended: the engine goes on, and an engine that becomes IDLE sets the ROUTES notice (R52, R57). -/
def Ev.endComputation (e : Ev) : Ev :=
  let e := e.onRoutes Routes.endComputation
  if e.routes.engine.isNone then e.notice .routes else e

/-- Target t becomes PRESENT: its column passes from EMPTY to STALE and joins the queue (R34, R43). -/
def Ev.targetPut (t : Nat) (e : Ev) : Ev := e.onRoutes fun r => (r.setCol t .stale).join e.mode.mode t

/-- Target t's node has changed: every cell of its column is withdrawn, a computation of it in flight is abandoned, and the
column is marked STALE and queued (R34, R55; log 17). -/
def Ev.targetMoved (t : Nat) (e : Ev) : Ev :=
  let e := (e.onStore fun st => st.emptyCells t (List.range Config.nodes)).tell (.column t)
  if e.routes.inFlight t then
    (e.onRoutes fun r => { (r.setCol t .stale).enqueue e.mode.mode t with engine := none }).endComputation
  else e.markColumn t

/-- Target t is gone: its column becomes EMPTY with its cells, leaves the queue, and a computation of it in flight is
abandoned (R35, R43, R51, R55). -/
def Ev.targetGone (t : Nat) (e : Ev) : Ev :=
  let e := e.onStore fun st => st.emptyCells t (List.range Config.nodes)
  let abandoned := e.routes.inFlight t
  let e := e.onRoutes fun r => { r.setCol t .empty with queue := r.queue.filter fun q => q.column ≠ t }
  if abandoned then e.endComputation else e

/-! ### The computation (R42, R52). -/

/-- A walk by one segment in a direction in which it is traversable. -/
structure Arc where
  segment : Nat
  start : Nat
  finish : Nat
  cost : Nat
  deriving DecidableEq, Repr

/-- The arcs of segment s in a mode, both ends PRESENT (R28, R42). -/
def Store.arcsOf (st : Store) (m : Mode) (s : Nat) : List Arc :=
  let r := st.segRec s
  let arc (x y : Nat) : List Arc :=
    if st.traversable m s x y && st.present .node x && st.present .node y then
      [{ segment := s, start := x, finish := y, cost := segmentCost r.length r.kind }]
    else []
  arc r.endA r.endB ++ arc r.endB r.endA

/-- Every arc of the graph, in ascending segment number. -/
def Store.arcs (st : Store) (m : Mode) : List Arc := (List.range Config.segments).flatMap (st.arcsOf m)

/-- One arc improves the distance at its start. -/
def relax (d : Table (Option Nat)) (a : Arc) : Table (Option Nat) :=
  match Table.get none d a.finish with
  | none => d
  | some dy =>
    match Table.get none d a.start with
    | none => Table.set none d a.start (some (a.cost + dy))
    | some dx => if a.cost + dy < dx then Table.set none d a.start (some (a.cost + dy)) else d

/-- Passes over the arcs until nothing improves; a path has at most 191 segments, so 191 passes are enough (R42). -/
def distances (arcs : List Arc) : Nat → Table (Option Nat) → Table (Option Nat)
  | 0, d => d
  | fuel + 1, d =>
    let d' := arcs.foldl relax d
    if d' = d then d else distances arcs fuel d'

/-- The cell at x of a column with target node `goal`: the least distance, and the lowest-numbered segment of a least path
(R42). -/
def computedCell (arcs : List Arc) (goal : Nat) (d : Table (Option Nat)) (x : Nat) : Cell :=
  if x = goal then { dist := some 0, next := none } else
  match Table.get none d x with
  | none => {}
  | some dx =>
    { dist := some dx
      next := (arcs.find? fun a => a.start = x && (Table.get none d a.finish).map (a.cost + ·) = some dx).map Arc.segment }

/-- The computed column of target t in a mode (R42). -/
def computedColumn (st : Store) (g : Graph) (m : Mode) (t : Nat) : Nat → Cell :=
  let arcs := st.arcs m
  match g.targetNode t with
  | none => fun _ => {}
  | some goal => computedCell arcs goal (distances arcs 191 [(goal, some 0)])

/-- Installs the column in flight, whole (R56). -/
def Ev.install (t : Nat) (e : Ev) : Ev :=
  let cells := computedColumn e.store e.graph e.mode.mode t
  ((e.onStore fun st => st.writeCells t (List.range Config.nodes) cells).onRoutes (Routes.setCol t .valid)).tell (.column t)

/-- The computation in flight reads one segment (R52). -/
def Ev.readSegment (s : Nat) (e : Ev) : Ev :=
  ((e.readWhole (.slot .segment s)).1).onRoutes fun r =>
    { r with engine := r.engine.map fun c => { c with read := c.read ++ [s] } }

/-- The segments that the computation in flight has still to read (R52). DESIGN CHOICE: COMPUTATION_COMPLETES makes these reads in
ascending segment number; R52 gives no order, which shows in the first damaged record (log 43). -/
def State.unreadSegments (s : State) : List Nat :=
  match s.routes.engine with
  | none => []
  | some c => (List.range Config.segments).filter fun k =>
      s.store.present .segment k && !s.store.isDamaged (.slot .segment k) && !c.read.contains k

/-- The Graph Table's reactions to the segments found damaged. -/
def Ev.reactSegments (e : Ev) : Ev :=
  e.found.foldl (fun e p =>
    match p with
    | .slot .segment s => e.segmentDamaged s
    | _ => e) { e with found := [] }

/-- The computation ends by completion: the rest of its reads (logs 18, 43), then the installation, or the column rejoins the queue
(R52, R54, R56, R57). -/
def Ev.completeComputation (e : Ev) : Ev :=
  let e := (e.unreadSegments.foldl (fun e s => e.readSegment s) e).reactSegments
  match e.routes.engine with
  | none => e
  | some c =>
    if c.overtaken then
      (e.onRoutes fun r => { r with engine := none }.enqueue e.mode.mode c.column).endComputation
    else (e.install c.column).endComputation

/-! ### The mode change and RESTART (R48, R62). -/

/-- The Graph Table reads the availability of segment s for the classes of a mode change (R4, R25, R29). A segment that the
read finds damaged has its hops withdrawn by the Graph Table's reaction, in the same event (R39). -/
def Ev.readAvailability (e : Ev) (s : Nat) : Ev := (e.read (.slot .segment s) [slotWord .segment s 1]).1

/-- The Route Engine's steps at a mode change, taken in the new mode (R29, R48). -/
def Ev.routesModeChange (old : Mode) (e : Ev) : Ev :=
  let e := (e.judgedByChange old e.mode.mode).foldl Ev.readAvailability e
  let closed : BrokenHops := fun s _ _ => e.closedByChange old e.mode.mode s
  let e := ((e.withdraw e.graph closed).onRoutes Routes.overtake).markAll
  e.onRoutes fun r => { r with queue := orderQueue e.mode.mode r.queue }

/-- RESTART abandons the computation, clears the queue and the joining count, and marks every present column STALE (R62). -/
def Ev.routesRestart (e : Ev) : Ev :=
  (e.onRoutes fun r => { r with queue := [], joinCount := 0, engine := none }).markAll

end Sys2Proof.Machine
end

