-- ==== Sys2Proof/Machine/ComposeOps.lean ====
section
/-! DEFINITION. The Composer: the lines of screens, tags and kiosk replies, the panels a change concerns, content versions
(R150 to R158, R167). -/

namespace Sys2Proof.Machine

/-! ### Inputs (R150, R152, R156). -/

/-- The record of a screen slot, as its words hold it. -/
def Store.screenRec (st : Store) (n : Nat) : ScreenRec := Table.get {} st.screens n

/-- A built-in phrase of a bank (R149). -/
def romPhrase (bank p : Nat) : Item := .phrase p (.rom bank)

/-- Phrase p of a bank; left out where its slot is ABSENT or damaged (R150). -/
def Ev.phrase (bank p : Nat) (e : Ev) : Ev × List Item :=
  if p < 16 then (e, [romPhrase bank p])
  else
    let i := phraseIndex bank p
    if !e.store.present .phrase i then (e, []) else
    match e.readWhole (.slot .phrase i) with
    | (e, .content) => (e, [.phrase p (.stored (Table.get [] e.store.phrases i))])
    | (e, _) => (e, [])

/-- Target t's name phrase; left out where the target's slot is ABSENT or damaged (R156). -/
def Ev.targetName (bank t : Nat) (e : Ev) : Ev × List Item :=
  if !e.store.present .target t then (e, []) else
  match e.readWhole (.slot .target t) with
  | (e, .content) => e.phrase bank (Table.get {} e.store.targets t).phrase
  | (e, _) => (e, [])

/-- A node's deck; unknown where its slot is damaged (R156). -/
def Ev.nodeDeck (n : Nat) (e : Ev) : Ev × Option Nat :=
  if !e.store.present .node n then (e, none) else
  match e.readWhole (.slot .node n) with
  | (e, .content) => (e, some (Table.get {} e.store.nodes n).deck)
  | (e, _) => (e, none)

/-- A cell as a composition reads it: a damaged cell is taken as no distance (R152, R156). -/
def Ev.readCell (t x : Nat) (e : Ev) : Ev × Cell :=
  match e.read (.cell t x) [cellWord t x] with
  | (e, .content) => (e, e.store.cell t x)
  | (e, _) => (e, {})

/-- The arrow of segment s at node x, from the reference index (R59). -/
def Graph.arrowAt (g : Graph) (s x : Nat) : Option Arrow :=
  (g.segment s).map fun r => if r.endA = x then r.arrowA else r.arrowB

/-! ### Route lines (R152, R154). -/

/-- The items that a cell gives after the name, HELD at the end where the column is STALE (R61, R152, R154). -/
def cellItems (g : Graph) (m : Mode) (bank : Nat) (stale : Bool) (x : Nat) (c : Cell) : List Item :=
  let arrow := ((c.next.bind fun s => g.arrowAt s x).map Item.arrow).toList
  let held := if stale then [Item.held] else []
  match c.dist, walking m c.dist with
  | none, .phrase p => [romPhrase bank p]
  | none, .minutes _ => []
  | some 0, _ => romPhrase bank 2 :: held
  | some _, .minutes n => arrow ++ [.minutes n, romPhrase bank 4] ++ held
  | some _, .phrase p => arrow ++ [romPhrase bank p] ++ held

/-- The items of cell (t, x) after the name. -/
def Ev.routeItems (bank t x : Nat) (e : Ev) : Ev × List Item :=
  let stale : Bool := e.routes.col t = .stale
  let (e, c) := e.readCell t x
  (e, cellItems e.graph e.mode.mode bank stale x c)

/-- A target line: the name, then the route (R152). -/
def Ev.targetLine (bank x t : Nat) (e : Ev) : Ev × List Item :=
  let (e, name) := e.targetName bank t
  let (e, route) := e.routeItems bank t x
  (e, name ++ route)

/-- Lines built one after the other. -/
def Ev.lines {α : Type} (f : α → Ev → Ev × List Item) : List α → Ev → Ev × Frame
  | [], e => (e, [])
  | a :: rest, e =>
    let (e, line) := f a e
    let (e, more) := Ev.lines f rest e
    (e, line :: more)

/-! ### Programme lines (R153, R167). -/

/-- The items of an entry's state (R153). -/
def stateItems (bank : Nat) (now : Option Nat) (r : ScheduleRow) : List Item :=
  let start := Item.time (r.start % 1440)
  match r.state, now with
  | .scheduled, _ => [start]
  | .soon, n => [romPhrase bank 10, .number (r.start - n.getD 0), romPhrase bank 4]
  | .running, _ => [romPhrase bank 5]
  | .ended, _ => []
  | .cancelled, some _ => [romPhrase bank 6]
  | .cancelled, none => [start, romPhrase bank 6]

/-- The words of an entry's title (R2). -/
def entryTitle (h : Nat) : List Nat := (List.range 11).map (slotWord .entry h)

/-- The word of an entry's other fields (R2). -/
def entryRest (h : Nat) : List Nat := [slotWord .entry h 11]

/-- An entry's line: title, audience, state. -/
def entryLine (bank : Nat) (now : Option Nat) (rec : EntryRec) (row : ScheduleRow) : List Item :=
  [.text rec.title, .number rec.audience.code] ++ stateItems bank now row

/-- Reads titles until k lines are built; a damaged entry is passed over (R153, R167). -/
def Ev.entryLines (bank : Nat) : Nat → List (Nat × ScheduleRow) → Ev → Ev × Frame
  | 0, _, e => (e, [])
  | _, [], e => (e, [])
  | k + 1, p :: rest, e =>
    match e.read (.slot .entry p.1) (entryTitle p.1) with
    | (e, .content) =>
      let line := entryLine bank e.now (e.store.entryRec p.1) p.2
      let (e, more) := Ev.entryLines bank k rest e
      (e, line :: more)
    | (e, _) => Ev.entryLines bank (k + 1) rest e

/-- The rows of entries that are PRESENT and not DAMAGED, in listing order (R89, R153). DESIGN CHOICE: they alone go on to a
screen's filter, though R153 states the filter first, so OWN DECK does not read the venue's node of a hidden entry (log 40). -/
def State.listed (s : State) : List (Nat × ScheduleRow) :=
  (listingOrder s.prog.rows).filter fun p => s.store.present .entry p.1 && !s.store.isDamaged (.slot .entry p.1)

/-- The states that qualify for a screen's programme lines (R153). -/
def ScheduleRow.showable (r : ScheduleRow) (now : Option Nat) : Bool :=
  match r.state, now with
  | .running, some _ | .soon, some _ => true
  | .scheduled, some n => r.start ≤ n + 360
  | .scheduled, none => true
  | .cancelled, _ => true
  | _, _ => false

/-- The filter OWN DECK: entries without a venue, and those whose venue's deck is the screen's (R153, R156). The venue's node is
read once for each entry that has a venue: DESIGN CHOICE (log 40). -/
def Ev.ownDeck (own : Option Nat) : List (Nat × ScheduleRow) → Ev → Ev × List (Nat × ScheduleRow)
  | [], e => (e, [])
  | p :: rest, e =>
    match (e.graph.entry p.1).bind EntryRef.venue with
    | none =>
      let (e, more) := Ev.ownDeck own rest e
      (e, p :: more)
    | some t =>
      let (e, deck) :=
        match e.graph.targetNode t with
        | none => (e, none)
        | some n => e.nodeDeck n
      let (e, more) := Ev.ownDeck own rest e
      (e, if deck.isSome && deck = own then p :: more else more)

/-- The entries that pass a screen's filter (R153). For OWN DECK the screen's node is read first, once: DESIGN CHOICE (log 40). -/
def Ev.filtered (f : ProgFilter) (x : Nat) (e : Ev) : Ev × List (Nat × ScheduleRow) :=
  match f with
  | .none => (e, [])
  | .all => (e, e.listed)
  | .ownDeck =>
    let (e, own) := e.nodeDeck x
    Ev.ownDeck own e.listed e

/-- Reads the other fields of each entry; a damaged entry is left out (log 32). -/
def Ev.readRest : List (Nat × ScheduleRow) → Ev → Ev × List (Nat × ScheduleRow)
  | [], e => (e, [])
  | p :: rest, e =>
    match e.read (.slot .entry p.1) (entryRest p.1) with
    | (e, .content) =>
      let (e, more) := Ev.readRest rest e
      (e, p :: more)
    | (e, _) => Ev.readRest rest e

/-- A screen's programme lines (R153). A screen with no line reads nothing for them: DESIGN CHOICE (log 40). -/
def Ev.programmeLines (r : ScreenRec) (e : Ev) : Ev × Frame :=
  if r.lines = 0 then (e, []) else
  let (e, passed) := e.filtered r.filter r.node
  let (e, known) := Ev.readRest (passed.filter fun p => p.2.showable e.now) e
  let highlight (p : Nat × ScheduleRow) : Bool := (e.store.entryRec p.1).highlight
  Ev.entryLines r.bank r.lines (known.filter highlight ++ known.filter fun p => !highlight p) e

/-! ### Screens (R152, R154). -/

/-- The time line, absent while the clock is UNSET (R152). -/
def State.timeLine (s : State) : Frame :=
  match s.time.clock.value with
  | none => []
  | some t => [[.time t.minute]]

/-- A screen's lines in NORMAL (R152). -/
def Ev.normalScreen (r : ScreenRec) (e : Ev) : Ev × Frame :=
  let (e, targets) := Ev.lines (fun t e => e.targetLine r.bank r.node t) r.targets e
  let (e, programme) := e.programmeLines r
  (e, e.timeLine ++ targets ++ programme)

/-- The lines of an assigned station that is PRESENT (R154). -/
def Ev.stationLines (r : ScreenRec) (a : Nat) (eff : Effective) (e : Ev) : Ev × Frame :=
  let (e, name) := e.targetName r.bank a
  let first := [romPhrase r.bank 0, .letter a] ++ name
  if eff.askCrew then (e, [first, [romPhrase r.bank 1]])
  else if eff.station = a then
    let (e, route) := e.routeItems r.bank a r.node
    (e, [first, route])
  else
    let (e, other) := e.targetName r.bank eff.station
    let (e, route) := e.routeItems r.bank eff.station r.node
    (e, [first, [romPhrase r.bank 8, .letter eff.station] ++ other, route])

/-- A screen's lines in DRILL and MUSTER (R154). -/
def Ev.musterScreen (r : ScreenRec) (e : Ev) : Ev × Frame :=
  let drill : Frame := if e.mode.mode = .drill then [[romPhrase r.bank 7]] else []
  let beacon : Frame := if r.beacon then [[.beacon 4 4]] else []
  let none' : Frame := [[romPhrase r.bank 15], [romPhrase r.bank 1]]
  let (e, station) :=
    match r.station with
    | none => (e, none')
    | some a =>
      match e.muster.effectiveOf a with
      | none => (e, none')
      | some eff => e.stationLines r a eff
  (e, drill ++ station ++ beacon)

/-- A screen's frame; none where the screen is not composed, being damaged (R151, R159). -/
def Ev.screenFrameOf (n : Nat) (e : Ev) : Ev × Option Frame :=
  if !e.store.present .screen n then (e, some []) else
  match e.readWhole (.slot .screen n) with
  | (e, .content) =>
    let r := e.store.screenRec n
    let (e, f) := if e.mode.mode = .normal then e.normalScreen r else e.musterScreen r
    (e, some f)
  | (e, _) => (e, none)

/-! ### Tags (R155). -/

/-- The fallback content (R132). -/
def State.fallback (s : State) (n : Nat) : Frame :=
  [[romPhrase (((s.cabinTable.summary n).map Summary.bank).getD 0) 15]]

/-- An optional text as a line. -/
def textLine (t : Option Text) : Frame :=
  match t with
  | none => []
  | some t => [[.text t]]

/-- A tag's lines in NORMAL (R155). -/
def normalTag (r : CabinRec) : Frame :=
  [[.text r.label]] ++ textLine r.occupant ++ textLine (r.greeting.map Greeting.text) ++
    match r.service with
    | .none => []
    | .privacy => [[romPhrase r.bank 12]]
    | .makeUp => [[romPhrase r.bank 13]]

/-- The lines of the cabin's own station on a tag (R155). DEDUCED: station s's node is taken from the reference index, and no word
of the station's record is read (log 47). -/
def Ev.tagStation (r : CabinRec) (e : Ev) : Ev × Frame :=
  if !e.muster.hasStation r.station then (e, [[romPhrase r.bank 15]]) else
  let (e, deck) :=
    match e.graph.stationNode r.station with
    | none => (e, none)
    | some x => e.nodeDeck x
  let deckLine : Frame :=
    match deck with
    | none => []
    | some d => [[romPhrase r.bank 9, .number d]]
  (e, [[romPhrase r.bank 0, .letter r.station]] ++ deckLine)

/-- A tag's lines in DRILL and MUSTER (R155). -/
def Ev.musterTag (r : CabinRec) (e : Ev) : Ev × Frame :=
  let drill : Frame := if e.mode.mode = .drill then [[romPhrase r.bank 7]] else []
  let (e, station) := e.tagStation r
  (e, drill ++ [[.text r.label]] ++ station ++ [[romPhrase r.bank 14]])

/-- A tag's frame (R155). -/
def Ev.tagFrameOf (n : Nat) (e : Ev) : Ev × Frame :=
  if !e.store.present .cabin n then (e, []) else
  let normal : Bool := e.mode.mode = .normal
  match e.read (.slot .cabin n) (if normal then (Place.slot .cabin n).words else cabinHead n) with
  | (e, .content) => if normal then (e, normalTag (e.store.cabinRec n)) else e.musterTag (e.store.cabinRec n)
  | (e, _) => (e, e.fallback n)

/-! ### Content versions (R158). -/

/-- Two resolved texts of a phrase are equal. -/
def samePhrase (p : Nat) : PhraseText → PhraseText → Bool
  | .rom b, .rom c => b = c || Config.romText b p = Config.romText c p
  | .stored t, .stored u => t = u
  | .rom b, .stored t | .stored t, .rom b => Config.romText b p = t

/-- Two items are equal; a phrase item's resolved text is part of its value (R158). -/
def sameItem : Item → Item → Bool
  | .phrase p t, .phrase q u => p = q && samePhrase p t u
  | i, j => i = j

/-- Two lists are equal element by element. -/
def sameList {α : Type} (f : α → α → Bool) : List α → List α → Bool
  | [], [] => true
  | a :: as, b :: bs => f a b && sameList f as bs
  | _, _ => false

/-- Two frames are equal, line by line and item by item (R158). -/
def sameFrame : Frame → Frame → Bool := sameList (sameList sameItem)

/-- A differing frame becomes the content, and the version rises (R158). -/
def PanelContent.take (f : Frame) (c : PanelContent) : PanelContent :=
  { content := f, version := (c.version + 1) % 65536 }

/-- Composes screen n (R151, R158). -/
def Ev.composeScreen (e : Ev) (n : Nat) : Ev :=
  match e.screenFrameOf n with
  | (e, none) => e
  | (e, some f) =>
    let c := e.composer.screen n
    if sameFrame f c.content then e
    else ({ e with composer := { e.composer with screens := Table.set {} e.composer.screens n (c.take f) } } : Ev).joinSend n

/-- Composes tag n (R151, R158); in a mode change event the tag channel joins later (R176). -/
def Ev.composeTag (e : Ev) (n : Nat) : Ev :=
  let (e, f) := e.tagFrameOf n
  let c := e.composer.tag n
  if sameFrame f c.content then e
  else
    let e : Ev := { e with composer := { e.composer with tags := Table.set {} e.composer.tags n (c.take f) } }
    if e.deferTags then { e with risen := e.risen ++ [n] } else e.onTag (TagChannel.raised n)

/-! ### The panels a change concerns (R157; log 19). -/

/-- How a change concerns a screen: not, in any case, or where the screen's record satisfies a test. -/
inductive Concern where
  | no
  | yes
  | record (p : ScreenRec → Bool)

/-- A concern that the index settles. -/
def Concern.of (b : Bool) : Concern := if b then .yes else .no

/-- In any case where `b` holds, else where the record satisfies `p`. -/
def Concern.orRecord (b : Bool) (p : ScreenRec → Bool) : Concern := if b then .yes else .record p

/-- The screen lists target t. -/
def State.lists (s : State) (t n : Nat) : Bool := (s.graph.screen n).any fun r => r.targets.contains t

/-- The screen is assigned to a station. -/
def ScreenRec.assigned (r : ScreenRec) : Bool := r.station.isSome

/-- The screen filters by its own deck. -/
def ScreenRec.byDeck (r : ScreenRec) : Bool := r.filter = .ownDeck

/-- How what the Composer is told concerns screen n (R157): nodes and listed targets are in the reference index, the other fields
in the screen's record. -/
def State.concern (s : State) (n : Nat) : Told → Concern
  | .screen m => .of (m = n)
  | .targetName t => if t < 16 then .orRecord (s.lists t n) ScreenRec.assigned else .of (s.lists t n)
  | .targetNode t => .orRecord (s.lists t n) ScreenRec.byDeck
  | .column t =>
    .orRecord (s.lists t n) fun r => (r.station.bind s.muster.effectiveOf).any fun e => e.station = t
  | .segment ends => .of ((s.graph.screen n).any fun r => ends.contains r.node)
  | .node m => .orRecord ((s.graph.screen n).any fun r => r.node = m) ScreenRec.byDeck
  | .entry => .record fun r => r.filter ≠ .none && 0 < r.lines
  | .clock => .yes
  | .station _ => .record ScreenRec.assigned
  | .effective m => .record fun r => r.station = some m
  | .bank b => .record fun r => r.bank = b
  | .cabin _ => .no
  | .everyPanel => .yes

/-- The change concerns the screen in any case. -/
def Concern.isYes : Concern → Bool
  | .yes => true
  | _ => false

/-- The test that the record decides by. -/
def Concern.test : Concern → Option (ScreenRec → Bool)
  | .record p => some p
  | _ => none

/-- Whether screen n is composed for what the Composer has been told: where the record decides, the Composer reads the record of
a PRESENT screen, both words, and a screen that is damaged is not composed (R4, R157, R159; log 19). -/
def Ev.concerned (told : List Told) (n : Nat) (e : Ev) : Ev × Bool :=
  let concerns := told.map (e.concern n)
  let tests := concerns.filterMap Concern.test
  if concerns.any Concern.isYes then (e, true)
  else if tests.isEmpty || !e.store.present .screen n then (e, false)
  else
    match e.readWhole (.slot .screen n) with
    | (e, .content) => (e, tests.any fun p => p (e.store.screenRec n))
    | (e, _) => (e, false)

/-- The screens that are composed, out of some. -/
def Ev.concernedScreens (told : List Told) : List Nat → Ev → Ev × List Nat
  | [], e => (e, [])
  | n :: rest, e =>
    let (e, concerned) := e.concerned told n
    let (e, more) := Ev.concernedScreens told rest e
    (e, if concerned then n :: more else more)

/-- The cabins of the roster that name a station. -/
def Muster.cabinsOf (m : Muster) (n : Nat) : List Nat :=
  m.roster.filterMap fun p => if p.2.any fun r => r.station = n then some p.1 else none

/-- The tags that are composed when the Composer is told this (R157). -/
def State.concernedTags (s : State) : Told → List Nat
  | .targetNode t => if t < 16 then s.muster.cabinsOf t else []
  | .node m =>
    (List.range Config.stations).flatMap fun n => if s.graph.stationNode n = some m then s.muster.cabinsOf n else []
  | .station n => s.muster.cabinsOf n
  | .bank b => s.cabinTable.summaries.filterMap fun p => if p.2.any fun m => m.bank = b then some p.1 else none
  | .cabin n => [n]
  | .everyPanel => List.range Config.cabins
  | _ => []

/-- Inserts a number in a strictly rising list. -/
def insertNat (n : Nat) : List Nat → List Nat
  | [] => [n]
  | m :: rest => if n < m then n :: m :: rest else if n = m then m :: rest else m :: insertNat n rest

/-- Composes the panels concerned, screens and then tags, each in ascending address (log 9). -/
def Ev.composeAll (told : List Told) (e : Ev) : Ev :=
  let (e, screens) := Ev.concernedScreens told (List.range Config.screens) e
  let tags := (told.flatMap e.concernedTags).foldr insertNat []
  tags.foldl Ev.composeTag (screens.foldl Ev.composeScreen e)

/-! ### Kiosk replies (R167). -/

/-- A bank for a kiosk whose record cannot be read: a free value (log 12). -/
def Ev.freeBank (e : Ev) : Ev × Nat := ({ e with freeCount := e.freeCount + 1 }, (Config.kioskBank e.freeCount).val)

/-- A node for a kiosk that the index does not hold: a free value (log 12). -/
def Ev.freeNode (e : Ev) : Ev × Nat := ({ e with freeCount := e.freeCount + 1 }, (Config.kioskNode e.freeCount).val)

/-- The kiosk's bank, for which both words of its screen record are read, whatever the query: DESIGN CHOICE (R2, R167; log 41). -/
def Ev.kioskBank (n : Nat) (e : Ev) : Ev × Nat :=
  if !e.store.present .screen n then e.freeBank else
  match e.readWhole (.slot .screen n) with
  | (e, .content) => (e, (e.store.screenRec n).bank)
  | (e, _) => e.freeBank

/-- The kiosk's node, as the index gives it (R167). -/
def Ev.kioskNode (n : Nat) (e : Ev) : Ev × Nat :=
  match e.graph.screen n with
  | some r => (e, r.node)
  | none => e.freeNode

/-- The reply to a route query in NORMAL (R167). -/
def Ev.routeReply (n t : Nat) (e : Ev) : Ev × Frame :=
  let (e, bank) := e.kioskBank n
  if Config.targets ≤ t ∨ e.routes.col t = .empty then (e, [[romPhrase bank 11]])
  else
    let (e, x) := e.kioskNode n
    let (e, line) := e.targetLine bank x t
    (e, [line])

/-- An entry qualifies for the listing from minute m and handle h (R89). -/
def qualifies (m h : Nat) (p : Nat × ScheduleRow) : Bool :=
  m < p.2.start || (p.2.start = m && h ≤ p.1) || p.2.state = .running

/-- Keeps the entries for an audience (R167). -/
def forAudience (a : Audience) (r : EntryRec) : Bool := a = .all || r.audience = a || r.audience = .all

/-- Reads entries in turn until k of them give a line for the audience (R167): of each its word 11 first, for every audience, and
its title after, where it gives a line. DESIGN CHOICE (log 32). -/
def Ev.queryLines (bank : Nat) (a : Audience) : Nat → List (Nat × ScheduleRow) → Ev → Ev × Frame
  | 0, _, e => (e, [])
  | _, [], e => (e, [])
  | k + 1, p :: rest, e =>
    match e.read (.slot .entry p.1) (entryRest p.1) with
    | (e, .content) =>
      if forAudience a (e.store.entryRec p.1) then
        match e.read (.slot .entry p.1) (entryTitle p.1) with
        | (e, .content) =>
          let line := entryLine bank e.now (e.store.entryRec p.1) p.2
          let (e, more) := Ev.queryLines bank a k rest e
          (e, line :: more)
        | (e, _) => Ev.queryLines bank a (k + 1) rest e
      else Ev.queryLines bank a (k + 1) rest e
    | (e, _) => Ev.queryLines bank a (k + 1) rest e

/-- The reply to a programme query in NORMAL (R167). -/
def Ev.programmeReply (n m : Nat) (a : Audience) (e : Ev) : Ev × Frame :=
  let (e, bank) := e.kioskBank n
  if Config.lastMinute < m then (e, [])
  else Ev.queryLines bank a 4 (e.listed.filter fun p => qualifies m 0 p && p.2.state ≠ .ended) e

end Sys2Proof.Machine
end

