-- ==== Sys2Proof/Machine/Events.lean ====
section
/-! DEFINITION. Whole events: the owners' reactions to damage, the Composer's part at an event's end, clock events, mode
changes, and the form that every host request takes (R6, R12, R70, R142, R157). -/

namespace Sys2Proof.Machine

/-! ### Reactions and compositions (R6, R157; log 9). -/

/-- The owner of a kind reacts to a finding (R39, R40, R47, R92, R111, R132, R150, R159). A place that a rewrite in the same
event has cleared needs no reaction. -/
def Ev.react (e : Ev) (p : Place) : Ev :=
  if !e.store.isDamaged p then e else
  match p with
  | .slot .segment s => e.segmentDamaged s
  | .cell t x => e.cellDamaged t x
  | .slot .node n => e.tell (.node n)
  | .slot .target t => e.tell (.targetName t)
  | .slot .station n => e.stationDamaged n
  | .slot .entrance _ => e.notice .entrance
  | .slot .entry _ => e.tell .entry
  | .slot .cabin n => e.tell (.cabin n)
  | .slot .screen n => e.pauseScreen n
  | .slot .phrase i => e.tell (.bank (i / 256))

/-- The owners react to every finding of the event so far. -/
def Ev.reactAll (e : Ev) : Ev := e.found.foldl Ev.react { e with found := [] }

/-- The Composer composes the panels concerned by what it has been told so far. -/
def Ev.composeTold (e : Ev) : Ev := { e with told := [] }.composeAll e.told

/-- Rounds of reactions and compositions until nothing is left: every further round takes a finding, and a finding takes a
double-bit word. -/
def Ev.settleRounds : Nat → Ev → Ev
  | 0, e => e
  | fuel + 1, e =>
    if e.found.isEmpty && e.told.isEmpty then e else Ev.settleRounds fuel e.reactAll.composeTold

/-- Settles an event. -/
def Ev.settle (e : Ev) : Ev := Ev.settleRounds (e.store.ramErrors.length + 2) e

/-- The state that an event leaves. -/
def Ev.finish (e : Ev) : State := e.settle.toState

/-! ### The ticks of the 16 Hz and the 1 Hz tap (R63; log 35). -/

/-- A 16 Hz tick that has fallen reaches the 16 lamp pattern generators (R63, R117). -/
def State.take16 (s : State) : State :=
  if s.time.due16 then
    { s with time := { s.time with due16 := false }, muster := (List.range Config.lamps).foldl Muster.tickLamp s.muster }
  else s

/-! ### Clock events (R70). -/

/-- A clock event: Programme Evaluator, Cabin Table, Composer (R70). -/
def Ev.clockEvent (bySet : Bool) (e : Ev) : Ev := ((e.programmeClock bySet).cabinClock).tell .clock

/-- A 1 Hz tick (R65, R66). -/
def Ev.clockTick (e : Ev) : Ev :=
  let before := e.time.clock
  let e := (e.setClock before.tick).noticeLimit before
  if before.tickEffect = .minuteBoundary then e.clockEvent false else e

/-- A 1 Hz tick that has fallen reaches the ship clock (R63, R65). -/
def State.take1 (s : State) : State :=
  if s.time.due1 then (Ev.start { s with time := { s.time with due1 := false } }).clockTick.finish else s

/-- The ticks that fell on the last 64 Hz tick and have not been taken; they touch different state (R63). -/
def State.takeDue (s : State) : State := s.take16.take1

/-! ### The mode change event (R142). -/

/-- The mode, the change count, the last cause and the MODE notice (R134, R142 steps 1 and 2). -/
def Ev.writeMode (new : Mode) (cause : ModeCause) (e : Ev) : Ev :=
  ({ e with mode := { e.mode with mode := new, changeCount := (e.mode.changeCount + 1) % 65536, lastCause := cause } } : Ev).notice
    .mode

/-- The mode change event, in the order of R142. -/
def Ev.modeChange (new : Mode) (cause : ModeCause) (e : Ev) : Ev :=
  let old := e.mode.mode
  let e := ((e.writeMode new cause).routesModeChange old).musterModeChange old
  let e : Ev := { e.tell .everyPanel with deferTags := true }
  let e : Ev := { e.settle with deferTags := false }
  e.tagModeChange.screenModeChange

/-! ### The alarm filter (R135 to R137). -/

/-- One 64 Hz tick of the alarm filter, with the sampled level (R135, R136). -/
def AlarmFilter.sample (level : Bool) (f : AlarmFilter) : AlarmFilter :=
  let held (taken : Bool) (other : FilterState) : AlarmFilter :=
    if level = taken then { f with hold := 0 }
    else if 32 < f.hold + 1 then { state := other, hold := 0 }
    else { f with hold := f.hold + 1 }
  match f.state with
  | .released => held false .asserted
  | .asserted => held true .released
  | .settling candidate =>
    if candidate ≠ some level then { state := .settling (some level), hold := 1 }
    else if 33 ≤ f.hold + 1 then { state := if level then .asserted else .released, hold := 0 }
    else { f with hold := f.hold + 1 }

/-- A taken assertion, or the filter settling ASSERTED, makes the mode MUSTER unless it is (R137). -/
def Ev.alarmTaken (before : FilterState) (e : Ev) : Ev :=
  if before ≠ .asserted ∧ e.mode.filter.state = .asserted ∧ e.mode.mode ≠ .muster then e.modeChange .muster .alarm else e

/-- One 64 Hz tick of the alarm filter, and what the Mode Controller does of it. -/
def Ev.alarmTick (level : Bool) (e : Ev) : Ev :=
  let before := e.mode.filter.state
  ({ e with mode := { e.mode with filter := e.mode.filter.sample level } } : Ev).alarmTaken before

/-! ### The 64 Hz tick (R63, R98; log 24). -/

/-- A 64 Hz tick of one entrance, settled. -/
def Ev.entranceEvent (beams : BitVec 64) (e : Ev) (k : Nat) : Ev :=
  (e.tickEntrance k (beams.getLsbD (2 * k)) (beams.getLsbD (2 * k + 1))).settle

/-- The 64 Hz tick: the divider, the 32 entrances, the alarm filter. Bit i of `beams` is set while BEAMi is blocked. -/
def Ev.tick64 (beams : BitVec 64) (alarm : Bool) (e : Ev) : Ev :=
  let e : Ev := { e with time := e.time.advance }
  ((List.range Config.entrances).foldl (Ev.entranceEvent beams) e).alarmTick alarm

/-! ### Requests (R12, R181). -/

/-- A request: the first check that refuses answers it and nothing else changes; otherwise it is made whole (R12). -/
def request (s : State) (code : Nat) (checks : List Check) (accept : Ev → Ev) : State :=
  match firstRefusal checks with
  | some c => s.answer (byte code) c.status c.payload
  | none => (accept (Ev.start s)).finish

/-- A request whose payload decodes, or one whose payload does not: refused with RANGE after the mode check of its group
(R12, R190; log 13). -/
def requestWith {α : Type} (s : State) (code : Nat) (modeCheck : List Check) (a : Fields α) (checks : α → List Check)
    (accept : α → Ev → Ev) : State :=
  match a with
  | .malformed => request s code (modeCheck ++ [rangeIf true]) id
  | .fields a => request s code (modeCheck ++ checks a) (accept a)

/-- Answers OK. -/
def Ev.ok (code : Nat) (payload : List Byte) (e : Ev) : Ev := e.answer (byte code) .ok payload

/-- Answers OK, or ADJUSTED where a value was clamped (R183). -/
def Ev.okOr (adjusted : Bool) (code : Nat) (payload : List Byte) (e : Ev) : Ev :=
  e.answer (byte code) (if adjusted then .adjusted else .ok) payload

/-- Answers DAMAGED with the place: of a read R7 says so; of a partial change that finds damage it is DEDUCED (R8, R193; log
46). -/
def Ev.damagedAnswer (code : Nat) (p : Place) (e : Ev) : Ev := e.answer (byte code) .damaged p.bytes

/-- A request that reads the whole of a slot: ABSENT with the revision, DAMAGED with the kind and index, or OK with what
`fields` makes of the store (R7, R36, R88, R97, R124, R148). -/
def Ev.getSlot (code : Nat) (k : Kind) (i : Nat) (fields : State → List Byte) (e : Ev) : Ev :=
  if !e.store.present k i then e.answer (byte code) .absent (num1 (e.store.rev k i)) else
  match e.readWhole (.slot k i) with
  | (e, .content) => e.ok code (fields e.toState)
  | (e, _) => e.damagedAnswer code (.slot k i)

/-- A whole-record PUT's checks before its owner's (R12, steps 3 and 4). -/
def State.putChecks (s : State) (k : Kind) (i : Nat) (rev : Option Nat) : List Check :=
  [rangeCheck k i, s.store.revCheck k i rev]

/-- A removal's checks before its owner's (R12, steps 3 to 5). -/
def State.removeChecks (s : State) (k : Kind) (i : Nat) (rev : Option Nat) : List Check :=
  s.putChecks k i rev ++ [s.store.presentCheck k i]

/-- A partial change's checks before its owner's (R12, steps 3 to 6). -/
def State.changeChecks (s : State) (k : Kind) (i : Nat) (rev : Option Nat) : List Check :=
  s.removeChecks k i rev ++ [s.store.damageCheck k i]

/-- A request of the reads and upkeep group, which carries no field (R143). -/
def upkeep (s : State) (code : Nat) (accept : Ev → Ev) : State := request s code [] accept

end Sys2Proof.Machine
end

