-- ==== Sys2Proof/Machine/CabinCommands.lean ====
section
/-! DEFINITION. The commands of the Cabin Table (R119 to R130). -/

namespace Sys2Proof.Machine

/-- An accepted PUT CABIN (R121). -/
def Ev.putCabin (n : Nat) (r : CabinRec) (e : Ev) : Ev :=
  let e := (e.onStore fun st => (st.writeCabin n r).putSlot .cabin n).onGraph (Graph.setCabin n (some r.node))
  let e := e.onCabins (CabinTable.setSummary n (some r.summary))
  (e.onMuster (Muster.setRoster n (some r.roster))).tell (.cabin n)

/-- The expiry of a greeting lies at or before now (R121, step 2). -/
def State.expiredAlready (s : State) (expiry : Option Nat) : Check := rangeIf (s.now.any fun n => expiry.any (· ≤ n))

/-- PUT CABIN (R121). -/
def execPutCabin (a : Fields PutCabin) (s : State) : Host.Outcome State Fault Refusal :=
  .next (requestWith s 0x60 [s.normalOnly] a
    (fun a => s.putChecks .cabin a.index a.rev ++
      [rangeIf a.record.isNone, s.expiredAlready a.greeting.expiry, s.store.nodeCheck a.node])
    fun a e =>
      match a.record with
      | none => e
      | some r =>
        let e := e.putCabin a.index r
        e.ok 0x60 (num1 (e.store.rev .cabin a.index)))

/-- The words that hold the fields a CHANGE CABIN names, in ascending order (R122). -/
def changeCabinWords (a : ChangeCabin) : List Nat :=
  (if a.namesHead then cabinHead a.index else []) ++ (if a.occupant.isSome then cabinOccupant a.index else []) ++
    if a.greeting.isSome then cabinGreeting a.index else []

/-- The write of the named fields of a cabin, and the neighbours that keep copies of them (R122). -/
def Ev.changeCabin (a : ChangeCabin) (e : Ev) : Ev :=
  let n := a.index
  let r := a.apply (e.store.cabinRec n)
  let e := e.onStore fun st => (st.writeCabin n r).changeSlot .cabin n (changeCabinWords a)
  let e := if a.node.isSome then e.onGraph (Graph.setCabin n (some r.node)) else e
  let e :=
    if a.bank.isSome || a.service.isSome || a.greeting.isSome then e.onCabins (CabinTable.setSummary n (some r.summary)) else e
  let e := if a.namesRoster then e.onMuster (Muster.setRoster n (some r.roster)) else e
  e.tell (.cabin n)

/-- A CHANGE CABIN's fields, or that its payload does not decode (R190). -/
def decoded : CabinFields → Fields ChangeCabin
  | .fields a => .fields a
  | .malformed _ => .malformed

/-- A CHANGE CABIN belongs to the cabin roster group: it names one of that group's fields (R143; log 13). -/
def inRosterGroup : CabinFields → Bool
  | .fields a => a.rosterGroup
  | .malformed roster => roster

/-- The mode check of a CHANGE CABIN, by its group (R143). -/
def State.changeCabinMode (s : State) (a : CabinFields) : Check := if inRosterGroup a then s.normalOnly else s.notInMuster

/-- The checks of CHANGE CABIN after the mode (R12, R121, R122). -/
def State.changeCabinChecks (s : State) (a : ChangeCabin) : List Check :=
  s.changeChecks .cabin a.index a.rev ++
    [rangeIf (!a.valid), s.expiredAlready (a.greeting.bind GreetingArg.expiry)] ++
    match a.node with
    | none => []
    | some x => [s.store.nodeCheck x]

/-- CHANGE CABIN (R122). -/
def execChangeCabin (a : CabinFields) (s : State) : Host.Outcome State Fault Refusal :=
  .next (requestWith s 0x61 [s.changeCabinMode a] (decoded a) s.changeCabinChecks fun a e =>
    match e.read (.slot .cabin a.index) (changeCabinWords a) with
    | (e, .content) =>
      let e := e.changeCabin a
      e.ok 0x61 (num1 (e.store.rev .cabin a.index))
    | (e, _) => e.damagedAnswer 0x61 (.slot .cabin a.index))

/-- The write of a service state (R126). -/
def Ev.setService (n : Nat) (v : Service) (e : Ev) : Ev :=
  let e := e.onStore fun st => (st.writeCabin n { st.cabinRec n with service := v }).changeSlot .cabin n (cabinHead n)
  (e.onCabins (CabinTable.setService n v)).tell (.cabin n)

/-- SET SERVICE (R126). -/
def execSetService (a : Fields SetService) (s : State) : Host.Outcome State Fault Refusal :=
  .next (requestWith s 0x62 [s.notInMuster] a
    (fun a => s.changeChecks .cabin a.index a.rev ++ [rangeIf (Service.ofCode a.service).isNone]) fun a e =>
      match e.read (.slot .cabin a.index) (cabinHead a.index) with
      | (e, .content) =>
        let e := e.setService a.index ((Service.ofCode a.service).getD .none)
        e.ok 0x62 (num1 (e.store.rev .cabin a.index))
      | (e, _) => e.damagedAnswer 0x62 (.slot .cabin a.index))

/-- An accepted REMOVE CABIN (R123). -/
def Ev.removeCabin (n : Nat) (e : Ev) : Ev :=
  let e := (e.onStore fun st => st.removeSlot .cabin n).onGraph (Graph.setCabin n none)
  let e := e.onCabins fun c =>
    { c.setSummary n none with service := c.service.filter fun p => p.cabin ≠ n }
  let e := e.onMuster (Muster.setRoster n none)
  (e.onTag (TagChannel.leaveRoutine n)).tell (.cabin n)

/-- REMOVE CABIN (R123). -/
def execRemoveCabin (a : Fields SlotArg) (s : State) : Host.Outcome State Fault Refusal :=
  .next (requestWith s 0x63 [s.normalOnly] a (fun a => s.removeChecks .cabin a.index a.rev) fun a e =>
    let e := e.removeCabin a.index
    e.ok 0x63 (num1 (e.store.rev .cabin a.index)))

/-- A cabin's fields before the greeting (R119). -/
def CabinRec.headBytes (r : CabinRec) : List Byte :=
  textBytes r.label ++ num1 r.node ++ num1 r.station ++ num1 r.berths ++ flag r.assist ++ num1 r.bank ++
    num1 r.service.code ++ optTextBytes r.occupant

/-- A greeting as an answer carries it: text and expiry (R190). -/
def greetingBytes (g : Option Greeting) : List Byte :=
  optTextBytes (g.map Greeting.text) ++ opt3 (g.bind Greeting.expiry)

/-- The fields of GET CABIN, whole, with the greeting withheld where they pass 200 bytes, or the greeting alone (R124, R192;
log 16). -/
def CabinRec.answer (r : CabinRec) (part : Option Nat) (rev : Nat) : List Byte :=
  let whole := r.headBytes ++ greetingBytes r.greeting ++ num1 rev
  match part with
  | some _ => greetingBytes r.greeting ++ num1 rev
  | none =>
    if whole.length ≤ Config.maxPayload then whole
    else r.headBytes ++ optTextBytes none ++ opt3 (r.greeting.bind Greeting.expiry) ++ num1 rev ++ num1 1

/-- GET CABIN (R124). -/
def execGetCabin (a : Fields GetCabin) (s : State) : Host.Outcome State Fault Refusal :=
  .next (requestWith s 0x64 [] a
    (fun a => [rangeCheck .cabin a.index, rangeIf (a.part.any (· ≠ 1))]) fun a e =>
      e.getSlot 0x64 .cabin a.index fun s => (s.store.cabinRec a.index).answer a.part (s.store.rev .cabin a.index))

/-- The search for a label over cabin slots in turn (R125). -/
def Ev.findCabin (label : Text) : List Nat → Ev → Ev × Option Nat
  | [], e => (e, none)
  | n :: rest, e =>
    if !e.store.present .cabin n then Ev.findCabin label rest e else
    match e.read (.slot .cabin n) (cabinHead n) with
    | (e, .content) => if (e.store.cabinRec n).label = label then (e, some n) else Ev.findCabin label rest e
    | (e, _) => Ev.findCabin label rest e

/-- FIND CABIN (R125). -/
def execFindCabin (a : Fields Text) (s : State) : Host.Outcome State Fault Refusal :=
  .next (requestWith s 0x65 [] a (fun label => [rangeIf (!textIn 1 6 label)]) fun label e =>
    match Ev.findCabin label (List.range Config.cabins) e with
    | (e, none) => e.answer (byte 0x65) .absent []
    | (e, some n) =>
      e.ok 0x65 (num2 n ++ textBytes label ++ num1 (e.store.cabinRec n).station ++ num1 (e.store.rev .cabin n)))

/-- COLLECT SERVICE CHANGES (R130). -/
def execCollectServiceChanges (s : State) : Host.Outcome State Fault Refusal :=
  .next (upkeep s 0x66 fun e =>
    let taken := e.cabinTable.service.take 16
    let rest := e.cabinTable.service.drop 16
    (e.onCabins fun c => { c with service := rest }).ok 0x66
      (listBytes (taken.map fun p => num2 p.cabin ++ num1 p.service.code) ++ num2 rest.length))

end Sys2Proof.Machine
end

