-- ==== Sys2Proof/Machine/ClockCommands.lean ====
section
/-! DEFINITION. The ticks of the three taps and the commands of the ship clock (R63 to R72, R98, R117, R135). -/

namespace Sys2Proof.Machine

/-- TICK_64HZ, with the sampled beam and alarm inputs (R63, R98, R99, R135). Ticks of the other taps that fell on the 64 Hz
tick before it and have not been taken are taken first, so that none is lost (log 35). -/
def execTick64Hz (beams : BitVec 64) (alarm : Bool) (s : State) : Host.Outcome State Fault Refusal :=
  .next ((Ev.start s.takeDue).tick64 beams alarm).finish

/-- TICK_16HZ: where the divider has given one, the 16 lamp pattern generators take it (R63, R117; log 35). -/
def execTick16Hz (s : State) : Host.Outcome State Fault Refusal := .next s.take16

/-- TICK_1HZ: where the divider has given one, the ship clock takes it (R63, R65, R66; log 35). -/
def execTick1Hz (s : State) : Host.Outcome State Fault Refusal := .next s.take1

/-- MINUTE_BOUNDARY: the 1 Hz tick, where it carries the minute (R65; log 5). -/
def execMinuteBoundary (s : State) : Host.Outcome State Fault Refusal :=
  if s.time.clock.tickEffect = .minuteBoundary then .next s.take1 else .next s

/-- CLOCK_REACHES_LIMIT: the 1 Hz tick, where it makes the clock AT LIMIT (R66; log 5). -/
def execClockReachesLimit (s : State) : Host.Outcome State Fault Refusal :=
  if s.time.clock.tickEffect = .limit then .next s.take1 else .next s

/-- SET CLOCK (R67). -/
def execSetClock (a : Fields SetClock) (s : State) : Host.Outcome State Fault Refusal :=
  .next (requestWith s 0x38 [] a (fun a => [rangeIf (setClockTime a).isNone]) fun a e =>
    match setClockTime a with
    | none => e
    | some t => ((e.setClock (.running t)).clockEvent true).ok 0x38 (timeBytes t))

/-- The clock holds no value. -/
def Clock.isUnset : Clock → Bool
  | .unset => true
  | _ => false

/-- The clock stands at its limit. -/
def Clock.isAtLimit : Clock → Bool
  | .atLimit _ => true
  | _ => false

/-- The checks of SHIFT CLOCK after its mode check (R68, steps 2 to 5). -/
def State.shiftChecks (s : State) (a : ShiftClock) : List Check :=
  [ rangeIf (!(a.direction < 2 && shiftAmount a.amount)),
    { refuses := s.time.clock.isUnset, status := .mode },
    { refuses := a.direction = 1 && s.time.clock.isAtLimit, status := .mode },
    rangeIf (a.direction = 1 && s.now.any (· < a.amount)) ]

/-- The clock after a shift (R69). -/
def Clock.shift (a : ShiftClock) (c : Clock) : Clock :=
  match c.value with
  | none => c
  | some t => if a.direction = 0 then advance t a.amount else retard t a.amount

/-- The clock's value and state as SHIFT CLOCK answers them (R69). -/
def Clock.shiftAnswer (c : Clock) : List Byte := optTimeBytes c.value ++ num1 c.code

/-- SHIFT CLOCK (R68, R69). -/
def execShiftClock (a : Fields ShiftClock) (s : State) : Host.Outcome State Fault Refusal :=
  .next (requestWith s 0x39 [s.notInMuster] a s.shiftChecks fun a e =>
    let before := e.time.clock
    let e := ((e.setClock (before.shift a)).noticeLimit before).clockEvent false
    e.ok 0x39 e.time.clock.shiftAnswer)

/-- READ CLOCK (R72). -/
def execReadClock (s : State) : Host.Outcome State Fault Refusal :=
  .next (upkeep s 0x3A fun e =>
    e.ok 0x3A (num1 e.time.clock.code ++ groupBytes (e.time.clock.value.map fun t => timeBytes t ++ num3 t.voyage)))

end Sys2Proof.Machine
end

