-- ==== Sys2Proof/Machine/GraphCommands.lean ====
section
/-! DEFINITION. The commands of the Graph Table (R22 to R38). -/

namespace Sys2Proof.Machine

/-! ### Nodes. -/

/-- Writes node n (R22, R30). -/
def Store.putNode (st : Store) (n : Nat) (r : NodeRec) : Store :=
  { st with nodes := Table.set {} st.nodes n r }.putSlot .node n

/-- PUT NODE (R30). -/
def execPutNode (a : Fields PutNode) (s : State) : Host.Outcome State Fault Refusal :=
  .next (requestWith s 0x20 [s.normalOnly] a
    (fun a => s.putChecks .node a.index a.rev ++ [rangeIf (!inRange 0 23 a.deck), s.lockedIf true])
    fun a e => ((e.onStore fun st => st.putNode a.index { deck := a.deck }).tell (.node a.index)).ok 0x20 [])

/-- REMOVE NODE (R27, R30). -/
def execRemoveNode (a : Fields SlotArg) (s : State) : Host.Outcome State Fault Refusal :=
  .next (requestWith s 0x21 [s.normalOnly] a
    (fun a =>
      let refs := s.graph.nodeRefs a.index
      s.removeChecks .node a.index a.rev ++
        [s.lockedIf true, { refuses := 0 < refs.total, status := .reference, payload := refs.bytes }])
    fun a e => (e.onStore fun st => st.removeSlot .node a.index).ok 0x21 [])

/-- GET NODE (R36). -/
def execGetNode (a : Fields Nat) (s : State) : Host.Outcome State Fault Refusal :=
  .next (requestWith s 0x22 [] a (fun n => [rangeCheck .node n]) fun n e =>
    e.getSlot 0x22 .node n fun s => num1 (Table.get {} s.store.nodes n).deck ++ num1 (s.store.rev .node n))

/-! ### Segments. -/

/-- Writes segment s (R23, R31). -/
def Store.putSegment (st : Store) (k : Nat) (r : SegRec) : Store :=
  { st with segments := Table.set {} st.segments k r }.putSlot .segment k

/-- The ends that the index gives of a segment. -/
def Graph.endsOf (g : Graph) (k : Nat) : List Nat := ((g.segment k).map fun r => [r.endA, r.endB]).getD []

/-- The hops by segment s that its new record does not allow in a mode (R46). -/
def brokenBy (k : Nat) (r : SegRec) (m : Mode) : BrokenHops := fun seg x y => seg = k && !r.traversable m x y

/-- An accepted PUT SEGMENT (R31). -/
def Ev.putSegment (k : Nat) (r : SegRec) (e : Ev) : Ev :=
  let old := e.graph
  let wasPresent := e.store.present .segment k
  let e := (e.onStore fun st => st.putSegment k r).onGraph (Graph.setSegment k (some r.ref))
  let e := if wasPresent then e.withdraw old (brokenBy k r e.mode.mode) else e
  e.graphChanged.tell (.segment (old.endsOf k ++ [r.endA, r.endB]))

/-- The lock refuses a segment that is not as the index has it (R38). -/
def State.segmentLock (s : State) (k : Nat) (r : SegRec) : Check := s.lockedIf (s.graph.segment k ≠ some r.ref)

/-- PUT SEGMENT (R23, R26, R31, R38). -/
def execPutSegment (a : Fields PutSegment) (s : State) : Host.Outcome State Fault Refusal :=
  .next (requestWith s 0x23 [s.normalOnly] a
    (fun a => s.putChecks .segment a.index a.rev ++
      [rangeIf a.record.isNone, s.segmentLock a.index (a.record.getD ({} : SegRec)), s.store.nodeCheck a.endA, s.store.nodeCheck a.endB])
    fun a e => (e.putSegment a.index (a.record.getD {})).ok 0x23 [])

/-- An accepted REMOVE SEGMENT (R32). -/
def Ev.removeSegment (k : Nat) (e : Ev) : Ev :=
  let old := e.graph
  let e := (e.onStore fun st => st.removeSlot .segment k).onGraph (Graph.setSegment k none)
  ((e.withdraw old fun seg _ _ => seg = k).graphChanged).tell (.segment (old.endsOf k))

/-- REMOVE SEGMENT (R32, R38). -/
def execRemoveSegment (a : Fields SlotArg) (s : State) : Host.Outcome State Fault Refusal :=
  .next (requestWith s 0x24 [s.normalOnly] a (fun a => s.removeChecks .segment a.index a.rev ++ [s.lockedIf true])
    fun a e => (e.removeSegment a.index).ok 0x24 [])

/-- The write of a new availability (R33). -/
def Store.setAvailability (st : Store) (k : Nat) (v : Availability) : Store :=
  { st with segments := Table.set {} st.segments k { st.segRec k with availability := v } }.changeSlot .segment
    k [slotWord .segment k 1]

/-- The part of SET SEGMENT STATE after its checks (R33). -/
def Ev.setSegmentState (k : Nat) (v : Availability) (e : Ev) : Ev :=
  match e.read (.slot .segment k) [slotWord .segment k 1] with
  | (e, .content) =>
    let old := (e.store.segRec k).availability
    let e := e.onStore fun st => st.setAvailability k v
    let e :=
      if old = v then e
      else (e.withdraw e.graph (brokenBy k (e.store.segRec k) e.mode.mode)).graphChanged
    e.ok 0x25 (num1 (e.store.rev .segment k))
  | (e, _) => e.damagedAnswer 0x25 (.slot .segment k)

/-- SET SEGMENT STATE (R33). -/
def execSetSegmentState (a : Fields SetSegmentState) (s : State) : Host.Outcome State Fault Refusal :=
  .next (requestWith s 0x25 [] a
    (fun a => s.changeChecks .segment a.index a.rev ++ [rangeIf (Availability.ofCode a.availability).isNone])
    fun a e => e.setSegmentState a.index ((Availability.ofCode a.availability).getD .openAll))

/-- A segment's fields (R23). -/
def SegRec.bytes (r : SegRec) : List Byte :=
  num1 r.endA ++ num1 r.endB ++ num1 r.length ++ num1 r.kind.code ++ num1 r.direction.code ++ num1 r.availability.code ++
    num1 r.arrowA.code ++ num1 r.arrowB.code

/-- GET SEGMENT (R36). -/
def execGetSegment (a : Fields Nat) (s : State) : Host.Outcome State Fault Refusal :=
  .next (requestWith s 0x26 [] a (fun k => [rangeCheck .segment k]) fun k e =>
    e.getSlot 0x26 .segment k fun s => (s.store.segRec k).bytes ++ num1 (s.store.rev .segment k))

/-! ### Targets. -/

/-- Writes target t (R24, R34). -/
def Store.putTarget (st : Store) (t : Nat) (r : TargetRec) : Store :=
  { st with targets := Table.set {} st.targets t r }.putSlot .target t

/-- A target put: the record, the index entry, and the effects that depend on what the target was (R34, R94). -/
def Ev.putTarget (t : Nat) (r : TargetRec) (e : Ev) : Ev :=
  let before := e.graph.targetNode t
  let e := (e.onStore fun st => st.putTarget t r).onGraph (Graph.setTarget t (some { node := r.node, kind := r.kind }))
  let e := e.tell (.targetName t)
  match before with
  | none => e.targetPut t
  | some n => if n = r.node then e else (e.targetMoved t).tell (.targetNode t)

/-- A target put or removal names a host target (R24). -/
def hostTarget (t : Nat) : Check := rangeIf (t < 16)

/-- PUT TARGET (R24, R26, R34, R38). -/
def execPutTarget (a : Fields PutTarget) (s : State) : Host.Outcome State Fault Refusal :=
  .next (requestWith s 0x27 [s.normalOnly] a
    (fun a => s.putChecks .target a.index a.rev ++
      [hostTarget a.index, rangeIf a.record.isNone, s.lockedIf true, s.store.nodeCheck a.node,
       { refuses := a.kind = 1 && 0 < s.graph.venueUses a.index, status := .reference }])
    fun a e => (e.putTarget a.index (a.record.getD {})).ok 0x27 [])

/-- A target removal: the record, the index entry, the column (R35, R95). -/
def Ev.removeTarget (t : Nat) (e : Ev) : Ev :=
  ((e.onStore fun st => st.removeSlot .target t).onGraph (Graph.setTarget t none)).targetGone t

/-- REMOVE TARGET (R27, R35, R38). -/
def execRemoveTarget (a : Fields SlotArg) (s : State) : Host.Outcome State Fault Refusal :=
  .next (requestWith s 0x28 [s.normalOnly] a
    (fun a => s.removeChecks .target a.index a.rev ++
      [hostTarget a.index, s.lockedIf true,
       { refuses := 0 < s.graph.screenListings a.index || 0 < s.graph.venueUses a.index, status := .reference,
         payload := s.graph.targetCounts a.index }])
    fun a e => (e.removeTarget a.index).ok 0x28 [])

/-- GET TARGET (R36). -/
def execGetTarget (a : Fields Nat) (s : State) : Host.Outcome State Fault Refusal :=
  .next (requestWith s 0x29 [] a (fun t => [rangeCheck .target t]) fun t e =>
    e.getSlot 0x29 .target t fun s =>
      let r := Table.get {} s.store.targets t
      num1 r.node ++ num1 r.phrase ++ num1 r.kind.code ++ num1 (s.store.rev .target t))

/-! ### References and the lock. -/

/-- READ REFERENCES names a node or a target in range (R36). -/
def nodeOrTarget (a : RecordName) : Bool :=
  (a.kind = 0 && a.index < Config.nodes) || (a.kind = 2 && a.index < Config.targets)

/-- READ REFERENCES (R36). -/
def execReadReferences (a : Fields RecordName) (s : State) : Host.Outcome State Fault Refusal :=
  .next (requestWith s 0x2A [] a (fun a => [rangeIf (!nodeOrTarget a)]) fun a e =>
    e.ok 0x2A (if a.kind = 0 then (e.graph.nodeRefs a.index).bytes else e.graph.targetCounts a.index))

/-- LOCK TOPOLOGY (R37). -/
def execLockTopology (s : State) : Host.Outcome State Fault Refusal :=
  .next (request s 0x2B [s.normalOnly] fun e => (e.onGraph fun g => { g with lock := true }).ok 0x2B [])

end Sys2Proof.Machine
end

