-- ==== Sys2Proof/Machine/LinkCommands.lean ====
section
/-! DEFINITION. The steps of the Panel Link: what the arbiters send, what the panels answer, what the timers make due, and the
link reads (R162 to R178, R196). -/

namespace Sys2Proof.Machine

/-! ### Screen channel: transfers (R168). -/

/-- A transfer begins on the screen channel. -/
def ScreenChannel.begin (t : ScreenTransfer) (f : PanelFrame) (c : ScreenChannel) : ScreenChannel :=
  { c with transfer := some t, lastFrame := some f }

/-- SEND (R164). -/
def execSend (s : State) : Host.Outcome State Fault Refusal :=
  match s.scr.choice with
  | some (.send n) => .next { s with scr := s.scr.begin (.send n (s.composer.screen n).version) (s.screenFrame n) }
  | _ => .next s

/-- PROBE (R165). -/
def execProbe (s : State) : Host.Outcome State Fault Refusal :=
  match s.scr.choice with
  | some (.probe n) =>
    .next { s with scr := { s.scr.begin (.probe n (s.composer.screen n).version) (s.screenFrame n) with
      probeDue := s.scr.probeDue.filter (· ≠ n) } }
  | _ => .next s

/-- KIOSK_POLL (R166). -/
def execKioskPoll (s : State) : Host.Outcome State Fault Refusal :=
  match s.scr.choice with
  | some (.poll n) =>
    .next { s with scr := { s.scr.begin (.poll n) { address := n, body := .kioskPoll } with
      kioskDue := s.scr.kioskDue.filter (· ≠ n), kioskPtr := (n + 1) % Config.screens } }
  | _ => .next s

/-- REPLY (R167). -/
def execReply (s : State) : Host.Outcome State Fault Refusal :=
  match s.scr.choice with
  | some (.reply r) =>
    .next { s with scr := { s.scr.begin (.reply r.screen) { address := r.screen, body := .reply r.body } with reply := none } }
  | _ => .next s

/-! ### Screen channel: answers. -/

/-- The event of an ACK: of a send or probe with its version, or of a reply; any other answer in a window is no answer
(R164, R165, R167, R196; log 25). DESIGN CHOICE: a late answer of a transfer that a RESTART has abandoned is judged against the
transfer in flight, where there is one by then (R177; log 45). -/
def Ev.ackTaken (address version : Nat) (e : Ev) : Ev :=
  match e.scr.transfer with
  | some (.send n v) => if address = n ∧ version = v then e.sendAcked n v else e.screenUnanswered
  | some (.probe n v) => if address = n ∧ version = v then e.probeAcked n v else e.screenUnanswered
  | _ => e.screenUnanswered

/-- ACK (R164, R165, R167; log 25). -/
def execAck (address version : Nat) (s : State) : Host.Outcome State Fault Refusal :=
  .next ((Ev.start s).ackTaken address version).finish

/-- The window of a transfer of the right kind ends with no answer. -/
def screenWindowEnds (p : ScreenTransfer → Bool) (s : State) : State :=
  if s.scr.transfer.any p then (Ev.start s).screenUnanswered.finish else s

/-- SEND_NO_ANSWER (R164). -/
def execSendNoAnswer (s : State) : Host.Outcome State Fault Refusal :=
  .next (screenWindowEnds (fun t => match t with | .send _ _ => true | _ => false) s)

/-- PROBE_NO_ANSWER (R165). -/
def execProbeNoAnswer (s : State) : Host.Outcome State Fault Refusal :=
  .next (screenWindowEnds (fun t => match t with | .probe _ _ => true | _ => false) s)

/-- KIOSK_POLL_NO_ANSWER (R166). -/
def execKioskPollNoAnswer (s : State) : Host.Outcome State Fault Refusal :=
  .next (screenWindowEnds (fun t => match t with | .poll _ => true | _ => false) s)

/-- REPLY_NO_ANSWER (R167). -/
def execReplyNoAnswer (s : State) : Host.Outcome State Fault Refusal :=
  .next (screenWindowEnds (fun t => match t with | .reply _ => true | _ => false) s)

/-- A kiosk's answer to its poll, with the reply it asks for; to another transfer, or from another address, it is no answer
(R166, R167, R196; logs 25, 45). -/
def Ev.kioskAnswer (address : Nat) (reply : Nat → Ev → Ev) (e : Ev) : Ev :=
  match e.scr.transfer with
  | some (.poll n) => if address = n then reply n (e.pollAnswered n) else e.screenUnanswered
  | _ => e.screenUnanswered

/-- NOTHING (R166). -/
def execNothing (address : Nat) (s : State) : Host.Outcome State Fault Refusal :=
  .next ((Ev.start s).kioskAnswer address fun _ e => e).finish

/-- A reply falls due (R167). -/
def Ev.replyDue (n : Nat) (body : ReplyBody) (e : Ev) : Ev :=
  e.onScr fun c => { c with reply := some { screen := n, body } }

/-- The reply to a query: REFUSED-MUSTER in DRILL and MUSTER, else what `build` gives (R167). -/
def Ev.queryTaken (n : Nat) (build : Ev → Ev × Frame) (e : Ev) : Ev :=
  if e.mode.mode = .normal then
    let (e, f) := build e
    e.replyDue n (.answer f)
  else e.replyDue n .refusedMuster

/-- ROUTE_QUERY (R167). -/
def execRouteQuery (address target : Nat) (s : State) : Host.Outcome State Fault Refusal :=
  .next ((Ev.start s).kioskAnswer address fun n => Ev.queryTaken n (Ev.routeReply n target)).finish

/-- PROGRAMME_QUERY; an audience outside its list is no answer (R167, R196). -/
def execProgrammeQuery (address minute audience : Nat) (s : State) : Host.Outcome State Fault Refusal :=
  match Audience.ofCode audience with
  | some a => .next ((Ev.start s).kioskAnswer address fun n => Ev.queryTaken n (Ev.programmeReply n minute a)).finish
  | none => .next (Ev.start s).screenUnanswered.finish

/-! ### Screen channel: timers. -/

/-- PROBE_DUE: the probe timer of a SILENT screen that is not paused (R165). -/
def execProbeDue (n : Nat) (s : State) : Host.Outcome State Fault Refusal :=
  if s.scr.silent.contains n && !(s.scr.link n).paused && !s.scr.probeDue.contains n then
    .next { s with scr := { s.scr with probeDue := s.scr.probeDue ++ [n] } }
  else .next s

/-- KIOSK_POLL_DUE: the poll timer of a kiosk in the rotation (R166). -/
def execKioskPollDue (n : Nat) (s : State) : Host.Outcome State Fault Refusal :=
  if n < Config.screens && (s.scr.link n).inRotation && !s.scr.kioskDue.contains n then
    .next { s with scr := { s.scr with kioskDue := s.scr.kioskDue ++ [n] } }
  else .next s

/-! ### Tag channel: transfers (R174). -/

/-- A transfer begins on the tag channel. -/
def TagChannel.begin (t : TagTransfer) (f : PanelFrame) (c : TagChannel) : TagChannel :=
  { c with transfer := some t, lastFrame := some f }

/-- The tag arbiter's step, taken where its choice is of the kind that `p` names; an exhausted walk is finished even where
nothing can be sent (R174, R175). -/
def State.tagStep (s : State) (p : TagChoice → Bool) : State :=
  match s.tagChoice with
  | (none, c) => { s with tag := c }
  | (some t, c) =>
    if !p t then s else
    match t with
    | .donePoll n =>
      { s with tag := (c.polled n s.time.refCount).begin (.donePoll n) { address := n, body := .donePoll } }
    | .send n => { s with tag := c.begin (.send n (s.composer.tag n).version) (s.tagFrame n) }
    | .statusPoll n => { s with tag := c.begin (.statusPoll n) { address := n, body := .statusPoll } }

/-- TAG_SEND (R171, R175). -/
def execTagSend (s : State) : Host.Outcome State Fault Refusal :=
  .next (s.tagStep fun t => match t with | .send _ => true | _ => false)

/-- DONE_POLL (R172). -/
def execDonePoll (s : State) : Host.Outcome State Fault Refusal :=
  .next (s.tagStep fun t => match t with | .donePoll _ => true | _ => false)

/-- STATUS_POLL (R173). -/
def execStatusPoll (s : State) : Host.Outcome State Fault Refusal :=
  .next (s.tagStep fun t => match t with | .statusPoll _ => true | _ => false)

/-! ### Tag channel: answers. -/

/-- An answer to a send from the address it was sent to; any other answer in a window is no answer (R171, R196; logs 25, 45). -/
def Ev.sendAnswer (address : Nat) (f : Nat → Nat → TagChannel → TagChannel) (e : Ev) : Ev :=
  match e.tag.transfer with
  | some (.send n v) => if address = n then e.onTag (f n v) else e.tagUnanswered
  | _ => e.tagUnanswered

/-- ACCEPTED (R171). DESIGN CHOICE: its time is the reference count at the last 64 Hz tick (R63, R169; log 44). -/
def execAccepted (address : Nat) (s : State) : Host.Outcome State Fault Refusal :=
  .next ((Ev.start s).sendAnswer address fun n v => TagChannel.accepted n v s.time.refCount).finish

/-- BUSY (R171). -/
def execBusy (address : Nat) (s : State) : Host.Outcome State Fault Refusal :=
  .next ((Ev.start s).sendAnswer address fun n _ => TagChannel.busy n).finish

/-- The window of a transfer of the right kind ends with no answer. -/
def tagWindowEnds (p : TagTransfer → Bool) (s : State) : State :=
  if s.tag.transfer.any p then (Ev.start s).tagUnanswered.finish else s

/-- TAG_SEND_NO_ANSWER (R171). -/
def execTagSendNoAnswer (s : State) : Host.Outcome State Fault Refusal :=
  .next (tagWindowEnds (fun t => match t with | .send _ _ => true | _ => false) s)

/-- DONE_POLL_NO_ANSWER (R172). -/
def execDonePollNoAnswer (s : State) : Host.Outcome State Fault Refusal :=
  .next (tagWindowEnds (fun t => match t with | .donePoll _ => true | _ => false) s)

/-- STATUS_POLL_NO_ANSWER (R173). -/
def execStatusPollNoAnswer (s : State) : Host.Outcome State Fault Refusal :=
  .next (tagWindowEnds (fun t => match t with | .statusPoll _ => true | _ => false) s)

/-- The answer of a tag to a DONE poll, with its button state, which is a tag report; a button state outside its list is no
answer (R127, R172, R196; logs 21, 25, 45). -/
def Ev.donePollAnswer (address button : Nat) (f : Nat → Ev → Ev) (e : Ev) : Ev :=
  match e.tag.transfer, Service.ofCode button with
  | some (.donePoll n), some b =>
    if address = n then (f n (e.onTag TagChannel.endTransfer)).tagReport n b else e.tagUnanswered
  | _, _ => e.tagUnanswered

/-- DONE (R172). -/
def execDone (address button : Nat) (s : State) : Host.Outcome State Fault Refusal :=
  .next ((Ev.start s).donePollAnswer address button Ev.tagDone).finish

/-- REFRESHING (R172). -/
def execRefreshing (address button : Nat) (s : State) : Host.Outcome State Fault Refusal :=
  .next ((Ev.start s).donePollAnswer address button fun _ e => e).finish

/-- The event of a STATUS: a SILENT or FAULT tag returns to service, and the button state is a tag report (R127, R173; logs 25, 45). -/
def Ev.statusTaken (address button : Nat) (e : Ev) : Ev :=
  match e.tag.transfer, Service.ofCode button with
  | some (.statusPoll n), some b =>
    if address = n then ((e.onTag TagChannel.endTransfer).onTag (TagChannel.returned n)).tagReport n b else e.tagUnanswered
  | _, _ => e.tagUnanswered

/-- STATUS (R173). -/
def execStatus (address button : Nat) (s : State) : Host.Outcome State Fault Refusal :=
  .next ((Ev.start s).statusTaken address button).finish

/-! ### Tag channel: timers. -/

/-- The moment of a DONE poll that falls due now: that of the last one where both fall due together, a later one otherwise
(R174; log 22). -/
def dueMoment (due : List DueDonePoll) (together : Bool) : Nat :=
  match due.getLast? with
  | none => 0
  | some d => if together then d.moment else d.moment + 1

/-- DONE_POLL_DUE (R172). -/
def execDonePollDue (n : Nat) (together : Bool) (s : State) : Host.Outcome State Fault Refusal :=
  if s.tag.refreshing n && !s.tag.doneDue.any fun d => d.cabin = n then
    .next { s with tag := { s.tag with
      doneDue := s.tag.doneDue ++ [{ moment := dueMoment s.tag.doneDue together, cabin := n }] } }
  else .next s

/-- REFRESH_TIMEOUT (R172). -/
def execRefreshTimeout (n : Nat) (s : State) : Host.Outcome State Fault Refusal :=
  if s.tag.refreshing n then .next ((Ev.start s).tagFault n).finish else .next s

/-- ROTATION_POLL_DUE (R173). -/
def execRotationPollDue (s : State) : Host.Outcome State Fault Refusal :=
  .next { s with tag := { s.tag with rotationDue := true } }

/-! ### Link reads (R178). -/

/-- A place in a list, counted from 1. -/
def placeIn (n : Nat) (list : List Nat) : Option Nat := (list.idxOf? n).map (· + 1)

/-- The fields of READ SCREEN LINK (R178). -/
def State.screenLinkAnswer (s : State) (n : Nat) : List Byte :=
  let l := s.scr.link n
  num1 l.presence.code ++ flag l.silent ++ flag l.paused ++ opt3 l.acked ++ num2 (s.composer.screen n).version ++
    num1 l.attempts ++ num1 l.missedPolls ++ opt1 (placeIn n s.scr.sendQueue) ++ opt1 (placeIn n s.scr.silent)

/-- READ SCREEN LINK (R178). -/
def execReadScreenLink (a : Fields Nat) (s : State) : Host.Outcome State Fault Refusal :=
  .next (requestWith s 0x80 [] a (fun n => [rangeCheck .screen n]) fun n e => e.ok 0x80 (e.screenLinkAnswer n))

/-- A refresh record as READ TAG LINK carries it; the form of its times is free (log 11). -/
def Refresh.bytes (r : Refresh) : List Byte :=
  num2 r.version ++ num3 (Config.linkTime r.acceptedAt).toNat ++ num3 (Config.linkTime r.pollAt).toNat

/-- The fields of READ TAG LINK (R178). -/
def State.tagLinkAnswer (s : State) (n : Nat) : List Byte :=
  let l := s.tag.link n
  num1 l.service.code ++ num2 l.shown ++ num2 (s.composer.tag n).version ++ flag l.dirty ++ num1 l.missed ++
    groupBytes (l.refresh.map Refresh.bytes) ++ opt2 (placeIn n s.tag.routine) ++
    flag (s.tag.sweep.any fun sw => sw.list.contains n)

/-- READ TAG LINK (R178). -/
def execReadTagLink (a : Fields Nat) (s : State) : Host.Outcome State Fault Refusal :=
  .next (requestWith s 0x81 [] a (fun n => [rangeCheck .cabin n]) fun n e => e.ok 0x81 (e.tagLinkAnswer n))

/-- The fields of READ LINK QUEUES (R178). -/
def State.queuesAnswer (s : State) : List Byte :=
  num1 s.scr.sendQueue.length ++ listBytes ((s.scr.sendQueue.take 8).map num1) ++ listBytes (s.scr.silent.map num1) ++
    num2 s.tag.routine.length ++ listBytes ((s.tag.routine.take 8).map num2) ++ flag s.tag.suspended ++
    opt2 (s.tag.sweep.map TagSweep.walk) ++ num2 ((s.tag.sweep.map fun sw => sw.list.length).getD 0) ++
    listBytes (s.tag.inRefresh.map num2)

/-- READ LINK QUEUES (R178). -/
def execReadLinkQueues (s : State) : Host.Outcome State Fault Refusal :=
  .next (upkeep s 0x82 fun e => e.ok 0x82 e.queuesAnswer)

end Sys2Proof.Machine
end

