-- ==== Sys2Proof/Machine/ModeCommands.lean ====
section
/-! DEFINITION. The commands of the Mode Controller, the alarm filter's events, and the resets (R134 to R145, R188, R189). -/

namespace Sys2Proof.Machine

/-- What a refused mode change answers: the mode as it stands (section 8.3). -/
def State.modeBytes (s : State) : List Byte := num1 s.mode.mode.code

/-- A mode change request is refused (R138 to R141). -/
def State.modeRefusal (s : State) (refuses : Bool) : Check := { refuses, status := .mode, payload := s.modeBytes }

/-- An accepted mode change request: the event, then OK with the new mode and change count (R142). -/
def Ev.changeMode (code : Nat) (new : Mode) (e : Ev) : Ev :=
  let e := e.modeChange new .host
  e.ok code (num1 e.mode.mode.code ++ num2 e.mode.changeCount)

/-- START DRILL (R138). -/
def execStartDrill (s : State) : Host.Outcome State Fault Refusal :=
  .next (request s 0x70 [s.modeRefusal (s.mode.mode ≠ .normal)] (Ev.changeMode 0x70 .drill))

/-- END DRILL (R139). -/
def execEndDrill (s : State) : Host.Outcome State Fault Refusal :=
  .next (request s 0x71 [s.modeRefusal (s.mode.mode ≠ .drill)] (Ev.changeMode 0x71 .normal))

/-- START MUSTER (R140). -/
def execStartMuster (s : State) : Host.Outcome State Fault Refusal :=
  .next (request s 0x72 [s.modeRefusal (s.mode.mode = .muster)] (Ev.changeMode 0x72 .muster))

/-- A refusal of END MUSTER carries the filter's state as well (R141). -/
def State.endMusterRefusal (s : State) (refuses : Bool) : Check :=
  { refuses, status := .mode, payload := s.modeBytes ++ num1 s.mode.filter.state.code }

/-- END MUSTER (R141). -/
def execEndMuster (s : State) : Host.Outcome State Fault Refusal :=
  .next (request s 0x73
    [s.endMusterRefusal (s.mode.mode ≠ .muster), s.endMusterRefusal (s.mode.filter.state ≠ .released)]
    (Ev.changeMode 0x73 .normal))

/-- The fields of READ MODE (R144). -/
def ModeControl.answer (m : ModeControl) : List Byte :=
  num1 m.mode.code ++ num1 m.filter.state.code ++ num1 m.filter.hold ++ num2 m.changeCount ++ num1 m.lastCause.code

/-- READ MODE (R144). -/
def execReadMode (s : State) : Host.Outcome State Fault Refusal :=
  .next (upkeep s 0x74 fun e => e.ok 0x74 e.mode.answer)

/-- TAKEN_ASSERTION: the filter's tick that takes an assertion (R135, R137; log 5). -/
def execTakenAssertion (s : State) : Host.Outcome State Fault Refusal :=
  if s.mode.filter.state = .released ∧ 32 ≤ s.mode.filter.hold then .next ((Ev.start s).alarmTick true).finish else .next s

/-- TAKEN_RELEASE: the filter's tick that takes a release (R135, R137; log 5). -/
def execTakenRelease (s : State) : Host.Outcome State Fault Refusal :=
  if s.mode.filter.state = .asserted ∧ 32 ≤ s.mode.filter.hold then .next ((Ev.start s).alarmTick false).finish else .next s

/-- FILTER_SETTLES: the filter's tick at which its hold count reaches 33 (R136, R137; log 5). -/
def execFilterSettles (s : State) : Host.Outcome State Fault Refusal :=
  match s.mode.filter.state with
  | .settling (some level) =>
    if 32 ≤ s.mode.filter.hold then .next ((Ev.start s).alarmTick level).finish else .next s
  | _ => .next s

/-! ### Resets (R188, R189). -/

/-- The state that a power-on or pin reset leaves; the waiting commands and the count of free values used are the model's own
(R188; log 12). -/
def State.afterReset (cause : ResetCause) (s : State) : State :=
  { State.reset with pending := s.pending, freeCount := s.freeCount, port := { State.reset.port with resetCause := cause } }

/-- POWER_ON_RESET (R188). -/
def execPowerOnReset (s : State) : Host.Outcome State Fault Refusal :=
  .next (s.afterReset .powerOn)

/-- PIN_RESET (R188). -/
def execPinReset (s : State) : Host.Outcome State Fault Refusal :=
  .next (s.afterReset .resetPin)

/-- The Mode Controller and the Route Engine take a RESTART: from DRILL as a mode change, by R48's steps, and then by R62's. R189
leaves the order open: DESIGN CHOICE (R62, R145, R189; log 37). -/
def Ev.restartMode (e : Ev) : Ev :=
  (if e.mode.mode = .drill then (e.writeMode .normal .restart).routesModeChange .drill else e).routesRestart

/-- An accepted RESTART (R189). -/
def Ev.restart (e : Ev) : Ev :=
  let e : Ev := { e with port := { e.port with resetCause := .restart } }
  let e := e.restartMode.onStore fun st => { st with sweep := none }
  let e := e.musterRestart.onCabins fun c => { c with service := [] }
  ((e.screenRestart.tagRestart).tell .everyPanel).settle

/-- RESTART (R143, R189). -/
def execRestart (s : State) : Host.Outcome State Fault Refusal :=
  .next (request s 0x94 [s.notInMuster] fun e =>
    let e := e.restart
    e.ok 0x94 (num1 e.mode.mode.code))

end Sys2Proof.Machine
end

