-- ==== Sys2Proof/Machine/MusterCommands.lean ====
section
/-! DEFINITION. The commands of the Muster Unit (R94 to R117). -/

namespace Sys2Proof.Machine

/-! ### Stations. -/

/-- The record of a station slot, as its words hold it. -/
def Store.stationRec (st : Store) (n : Nat) : StationRec := Table.get {} st.stations n

/-- Writes station n (R94). -/
def Store.putStation (st : Store) (n : Nat) (r : StationRec) : Store :=
  { st with stations := Table.set {} st.stations n r }.putSlot .station n

/-- What the unit copies from a station record (R94, step 3). -/
def StationRec.settings (r : StationRec) : StationSettings :=
  { capacity := r.capacity, nearFull := r.nearFull, overflow := r.overflow, lamp := r.lamp }

/-- Writes station n's settings. -/
def Muster.setSettings (n : Nat) (r : Option StationSettings) (m : Muster) : Muster :=
  { m with stationSettings := Table.set none m.stationSettings n r }

/-- A station put onto an ABSENT slot takes STANDBY and sets the STATION notice (R94, step 4). -/
def Ev.newStation (n : Nat) (e : Ev) : Ev := (e.onMuster (Muster.setLive n {})).notice .station

/-- An accepted PUT STATION (R94). -/
def Ev.putStation (n : Nat) (r : StationRec) (e : Ev) : Ev :=
  let wasPresent := e.muster.hasStation n
  let e := (e.onStore fun st => st.putStation n r).onGraph (Graph.setStation n (some r.node))
  let e := e.onMuster (Muster.setSettings n (some r.settings))
  let e := if wasPresent then e else e.newStation n
  let e := e.putTarget n { node := r.node, phrase := r.phrase, kind := .station }
  (e.resolve.onMuster Muster.pointLamps).tell (.station n)

/-- Another present station names the lamp line (R94). -/
def Muster.lampTaken (m : Muster) (n : Nat) (line : Option Nat) : Bool :=
  line.isSome && (List.range Config.stations).any fun k => k ≠ n && (m.settings k).any fun s => s.lamp = line

/-- The checks of PUT STATION after the mode (R12, R26, R38, R94). -/
def State.putStationChecks (s : State) (a : PutStation) : List Check :=
  s.putChecks .station a.index a.rev ++
    [ rangeIf a.record.isNone, s.lockedIf (s.graph.stationNode a.index ≠ some a.node), s.store.nodeCheck a.node,
      { refuses := s.muster.lampTaken a.index a.lamp, status := .reference } ]

/-- PUT STATION (R94). -/
def execPutStation (a : Fields PutStation) (s : State) : Host.Outcome State Fault Refusal :=
  .next (requestWith s 0x50 [s.normalOnly] a s.putStationChecks fun a e =>
    match a.record with
    | none => e
    | some r =>
      let clamped : Bool := r.nearFull ≠ a.nearFull
      (e.putStation a.index r).okOr clamped 0x50 (if clamped then num1 r.nearFull else []))

/-- An accepted REMOVE STATION (R95). -/
def Ev.removeStation (n : Nat) (e : Ev) : Ev :=
  let e := (e.onStore fun st => st.removeSlot .station n).onGraph (Graph.setStation n none)
  let e := (e.onMuster fun m => (m.setSettings n none).setLive n {}).notice .station
  let e := e.removeTarget n
  (e.resolve.onMuster Muster.pointLamps).tell (.station n)

/-- REMOVE STATION (R27, R38, R95). -/
def execRemoveStation (a : Fields SlotArg) (s : State) : Host.Outcome State Fault Refusal :=
  .next (requestWith s 0x51 [s.normalOnly] a
    (fun a => s.removeChecks .station a.index a.rev ++
      [s.lockedIf true,
       { refuses := 0 < s.graph.screenListings a.index, status := .reference,
         payload := num1 (s.graph.screenListings a.index) }])
    fun a e => (e.removeStation a.index).ok 0x51 [])

/-- A station's stored fields (R94). -/
def StationRec.bytes (r : StationRec) : List Byte :=
  num1 r.node ++ num2 r.capacity ++ num1 r.nearFull ++ opt1 r.overflow ++ opt1 r.lamp ++ num1 r.phrase

/-- GET STATION (R97). -/
def execGetStation (a : Fields Nat) (s : State) : Host.Outcome State Fault Refusal :=
  .next (requestWith s 0x52 [] a (fun n => [rangeCheck .station n]) fun n e =>
    e.getSlot 0x52 .station n fun s => (s.store.stationRec n).bytes ++ num1 (s.store.rev .station n))

/-- The roster's two figures of a station number (R106). -/
def Muster.figures (m : Muster) (n : Nat) : List Byte := num2 (m.expected n) ++ num2 (m.assistance n)

/-- The fields of READ STATION (R97). -/
def State.stationAnswer (s : State) (n : Nat) : List Byte :=
  let l := s.muster.live n
  let eff := (s.muster.effectiveOf n).getD { station := n, askCrew := false }
  num1 l.state.code ++ num1 eff.station ++ flag eff.askCrew ++ num2 l.head ++ num1 l.unmatched ++ num1 l.ambiguous ++
    s.muster.figures n ++ optTimeBytes l.firstArrival.time ++ optTimeBytes l.fullTime.time ++
    flag (s.store.isDamaged (.slot .station n))

/-- READ STATION (R97). -/
def execReadStation (a : Fields Nat) (s : State) : Host.Outcome State Fault Refusal :=
  .next (requestWith s 0x53 [] a
    (fun n => [rangeCheck .station n,
      { refuses := !s.muster.hasStation n, status := .absent, payload := s.muster.figures n }])
    fun n e => e.ok 0x53 (e.stationAnswer n))

/-! ### Entrances. -/

/-- The record of an entrance slot, as its words hold it. -/
def Store.entranceRec (st : Store) (k : Nat) : EntranceRec := Table.get {} st.entrances k

/-- Writes entrance k (R96). -/
def Store.putEntrance (st : Store) (k : Nat) (r : EntranceRec) : Store :=
  { st with entrances := Table.set {} st.entrances k r }.putSlot .entrance k

/-- Restarts the hold count of beam input i (R96). -/
def Muster.restartHold (i : Nat) (m : Muster) : Muster := m.setBeam i { m.beam i with hold := 0 }

/-- The unit's part of an entrance put (R96, steps 2 to 4). -/
def Muster.putEntrance (k : Nat) (r : EntranceRec) (m : Muster) : Muster :=
  (({ m with entranceSettings := Table.set none m.entranceSettings k (some r) }.setDecoder k {}).restartHold (2 * k)).restartHold
    (2 * k + 1)

/-- The unit's part of an entrance removal (R96). -/
def Muster.removeEntrance (k : Nat) (m : Muster) : Muster :=
  { m with entranceSettings := Table.set none m.entranceSettings k none }.setDecoder k {}

/-- PUT ENTRANCE (R38, R96). -/
def execPutEntrance (a : Fields PutEntrance) (s : State) : Host.Outcome State Fault Refusal :=
  .next (requestWith s 0x54 [s.normalOnly] a
    (fun a => s.putChecks .entrance a.index a.rev ++ [rangeIf a.record.isNone, s.lockedIf true]) fun a e =>
      match a.record with
      | none => e
      | some r =>
        ((e.onStore fun st => st.putEntrance a.index r).onMuster (Muster.putEntrance a.index r)).ok 0x54 [])

/-- REMOVE ENTRANCE (R38, R96). -/
def execRemoveEntrance (a : Fields SlotArg) (s : State) : Host.Outcome State Fault Refusal :=
  .next (requestWith s 0x55 [s.normalOnly] a (fun a => s.removeChecks .entrance a.index a.rev ++ [s.lockedIf true])
    fun a e =>
      ((e.onStore fun st => st.removeSlot .entrance a.index).onMuster (Muster.removeEntrance a.index)).ok 0x55 [])

/-- GET ENTRANCE (R97). -/
def execGetEntrance (a : Fields Nat) (s : State) : Host.Outcome State Fault Refusal :=
  .next (requestWith s 0x56 [] a (fun k => [rangeCheck .entrance k]) fun k e =>
    e.getSlot 0x56 .entrance k fun s =>
      let r := s.store.entranceRec k
      opt1 r.station ++ num1 r.filter ++ flag r.swapped ++ num1 (s.store.rev .entrance k))

/-- The fields of READ ENTRANCE: the taken levels after orientation, outer and inner, the decoder state, the stuck timers in
the same order; an ABSENT entrance gives its taken levels and IDLE (R97). A taken level is carried as 1 while blocked, and an
ABSENT entrance, which has no orientation, gives its first input before its second: DESIGN CHOICE (log 39). -/
def Muster.entranceAnswer (m : Muster) (k : Nat) : List Byte :=
  let first := (m.beam (2 * k)).blocked
  let second := (m.beam (2 * k + 1)).blocked
  let d := m.decoder k
  match m.entrance k with
  | none => flag first ++ flag second ++ num1 DecoderState.idle.code
  | some r =>
    if r.swapped then
      flag second ++ flag first ++ num1 d.state.code ++ num2 d.stuckSecond ++ num2 d.stuckFirst
    else flag first ++ flag second ++ num1 d.state.code ++ num2 d.stuckFirst ++ num2 d.stuckSecond

/-- READ ENTRANCE (R97). -/
def execReadEntrance (a : Fields Nat) (s : State) : Host.Outcome State Fault Refusal :=
  .next (requestWith s 0x57 [] a (fun k => [rangeCheck .entrance k]) fun k e => e.ok 0x57 (e.muster.entranceAnswer k))

/-! ### Station control. -/

/-- The station named is ABSENT (R105, R108 to R110). -/
def Muster.stationCheck (m : Muster) (n : Nat) : Check := { refuses := !m.hasStation n, status := .absent }

/-- SECURE (R108). -/
def execSecure (a : Fields Nat) (s : State) : Host.Outcome State Fault Refusal :=
  .next (requestWith s 0x58 [s.sessionOnly] a
    (fun n => [rangeCheck .station n, s.muster.stationCheck n,
      { refuses := (s.muster.live n).state = .notSafe, status := .mode }])
    fun n e => (e.setStationState n .secured).ok 0x58 [])

/-- MARK UNSAFE (R109). -/
def execMarkUnsafe (a : Fields Nat) (s : State) : Host.Outcome State Fault Refusal :=
  .next (requestWith s 0x59 [] a (fun n => [rangeCheck .station n, s.muster.stationCheck n])
    fun n e => (e.setStationState n .notSafe).ok 0x59 [])

/-- The state that REOPEN gives: STANDBY in NORMAL, in a session what the comparison gives (R110). -/
def State.reopened (s : State) (n : Nat) : StationState :=
  match s.mode.mode, s.muster.settings n with
  | .normal, _ => .standby
  | _, none => .taking
  | _, some r => threshold r (s.muster.live n).head

/-- REOPEN is refused for a station that is not closed: in NORMAL one that is not UNSAFE, in a session one that is neither
SECURED nor UNSAFE (R110). -/
def State.reopenRefused (s : State) (n : Nat) : Bool :=
  match (s.muster.live n).state with
  | .notSafe => false
  | .secured => s.mode.mode = .normal
  | _ => true

/-- REOPEN (R110). -/
def execReopen (a : Fields Nat) (s : State) : Host.Outcome State Fault Refusal :=
  .next (requestWith s 0x5A [] a
    (fun n => [rangeCheck .station n, s.muster.stationCheck n, s.store.damageCheck .station n,
      { refuses := s.reopenRefused n, status := .mode }])
    fun n e => (e.setStationState n (e.reopened n)).ok 0x5A (num1 (e.reopened n).code))

/-- SET HEAD COUNT (R105). -/
def execSetHeadCount (a : Fields SetHeadCount) (s : State) : Host.Outcome State Fault Refusal :=
  .next (requestWith s 0x5B [s.sessionOnly] a
    (fun a => [rangeCheck .station a.station, s.muster.stationCheck a.station]) fun a e =>
      let count := clamp 0 1999 a.count
      let e := e.setHead a.station count
      e.okOr (count ≠ a.count) 0x5B (num2 count ++ num1 (e.muster.live a.station).state.code))

/-- A row of the roll as READ ROLL carries it (R114). -/
def RollRow.bytes (r : RollRow) : List Byte :=
  num1 r.state.code ++ num2 r.head ++ num2 r.expected ++ num2 r.assistance ++ num1 r.unmatched ++ num1 r.ambiguous ++
    optTimeBytes r.firstArrival ++ optTimeBytes r.fullTime

/-- The fields of READ ROLL: the roll, absent or with its kind and the station's row, absent where it has none (R114;
log 15). -/
def Muster.rollAnswer (m : Muster) (n : Nat) : List Byte :=
  groupBytes (m.roll.map fun r => num1 r.kind.code ++ groupBytes ((Table.get none r.rows n).map RollRow.bytes))

/-- READ ROLL (R114). -/
def execReadRoll (a : Fields Nat) (s : State) : Host.Outcome State Fault Refusal :=
  .next (requestWith s 0x5C [] a (fun n => [rangeCheck .station n]) fun n e => e.ok 0x5C (e.muster.rollAnswer n))

/-! ### Events of the entrances and the lamps (log 5). -/

/-- The 64 Hz tick of one entrance, taken where `p` holds of what it comes to. -/
def entranceEvent (k : Nat) (first second : Bool) (p : EntranceTick → Bool) (s : State) : State :=
  let t := s.muster.entranceTick k first second
  if k < Config.entrances && p t then ((Ev.start s).takeEntrance k t).finish else s

/-- TAKEN_CHANGE (R98 to R103). -/
def execTakenChange (k : Nat) (first second : Bool) (s : State) : Host.Outcome State Fault Refusal :=
  .next (entranceEvent k first second EntranceTick.taken s)

/-- STUCK_BEAM_FAULT (R102). -/
def execStuckBeamFault (k : Nat) (first second : Bool) (s : State) : Host.Outcome State Fault Refusal :=
  .next (entranceEvent k first second EntranceTick.faulted s)

/-- FAULT_CLEARED (R102). -/
def execFaultCleared (k : Nat) (first second : Bool) (s : State) : Host.Outcome State Fault Refusal :=
  .next (entranceEvent k first second EntranceTick.cleared s)

/-- LAMP_PHASE_TURN: the 16 Hz tick, where it turns line l's phase (R63, R117; log 5). -/
def execLampPhaseTurn (l : Nat) (s : State) : Host.Outcome State Fault Refusal :=
  if l < Config.lamps ∧ (s.muster.lamp l).turnsNext = true then .next s.take16 else .next s

end Sys2Proof.Machine
end

