-- ==== Sys2Proof/Machine/PortCommands.lean ====
section
/-! DEFINITION. The commands of the Command Port and Notice Unit, and the select of the host (R179 to R187). -/

namespace Sys2Proof.Machine

/-- What a fetch shifts out of the response buffer (R182). -/
def ResponseBuffer.fetched : ResponseBuffer → List Byte
  | .ready r => r.frame
  | _ => notReadyResponse.frame

/-- The port as the select finds it: the work in progress is still going on, or is complete (R181; log 2). -/
def Port.at (m : PortMoment) (p : Port) : Port :=
  match m with
  | .duringWork => p
  | .afterWork => p.complete

/-- FETCH (R182). -/
def execFetch (m : PortMoment) (s : State) : Host.Outcome State Fault Refusal :=
  let p := s.port.at m
  .next { s with port := { p with spiOut := .frame p.buffer.fetched } }

/-- The byte that the part shifts out while the host shifts in byte i of a select, where the manual gives it: 0xFF in a request
select, and in a fetch the frame from the byte after the FETCH code on (R179, R191). -/
def SpiOut.byteAt (i : Nat) : SpiOut → Option Byte
  | .nothing => none
  | .idle => some idleByte
  | .frame bytes => if i = 0 then none else bytes[i - 1]?

/-- The answer of the port's checks (R180). -/
def stopStatus : FrameStop → Status
  | .length => .length
  | .check => .check
  | .unknown => .unknown

/-- What the request buffer holds of a select (R179). -/
def requestBufferOf (bytes : List Byte) : RequestBuffer := { bytes := storedBytes bytes, count := bytes.length }

/-- STOPPED_FRAME: the port's checks stop the frame, and the answer echoes its first byte (R180, R192). Bytes that the checks
let pass, that are none, or that begin with the FETCH code are no stopped frame (log 4). -/
def execStoppedFrame (bytes : List Byte) (s : State) : Host.Outcome State Fault Refusal :=
  match bytes with
  | [] => .next s
  | b :: _ =>
    if b = fetchCode then .next s else
    match portChecks (storedBytes bytes) bytes.length with
    | none => .next s
    | some stop =>
      .next ({ s with port := { s.port with requestBuffer := requestBufferOf bytes } }.answer b (stopStatus stop) [])

/-- A discard sets the flag of the response being worked; the discarded request's select shifts out the idle value (R179, R181). A
port that is not WORKING discards nothing (log 4). -/
def Port.discard (p : Port) : Port :=
  match p.buffer with
  | .working r => { p with buffer := .working { r with discard := true }, spiOut := .idle }
  | _ => p

/-- DISCARDED_REQUEST (R181). -/
def execDiscardedRequest (s : State) : Host.Outcome State Fault Refusal := .next { s with port := s.port.discard }

/-- A set of sources as one byte (R193). -/
def maskByte (m : BitVec 8) : List Byte := [m]

/-- The fields of READ STATUS (R187). The ATTN level is carried as 1 while asserted: DEDUCED (log 15). -/
def State.statusAnswer (s : State) : List Byte :=
  maskByte s.pendingFlags ++ maskByte s.port.enables ++ flag s.port.master ++ flag s.attn ++ num1 s.mode.mode.code ++
    num1 s.time.clock.code ++ flag s.graph.lock ++ flag s.routes.engine.isSome ++ flag s.store.sweep.isSome ++
    num1 s.port.resetCause.code

/-- READ STATUS (R187). -/
def execReadStatus (s : State) : Host.Outcome State Fault Refusal :=
  .next (upkeep s 0x90 fun e => e.ok 0x90 e.statusAnswer)

/-- A change of the port inside an event. -/
def Ev.onPort (f : Port → Port) (e : Ev) : Ev := { e with port := f e.port }

/-- CLEAR NOTICES (R186). -/
def execClearNotices (a : Fields Nat) (s : State) : Host.Outcome State Fault Refusal :=
  .next (requestWith s 0x91 [] a (fun _ => []) fun m e =>
    let e := e.onPort fun p => { p with latched := p.latched &&& ~~~BitVec.ofNat 8 m }
    e.ok 0x91 (maskByte e.pendingFlags))

/-- The enables, the master enable and the ATTN level, carried as 1 while asserted: DEDUCED (R186; log 15). -/
def State.enablesAnswer (s : State) : List Byte := maskByte s.port.enables ++ flag s.port.master ++ flag s.attn

/-- SET NOTICE ENABLES (R186). -/
def execSetNoticeEnables (a : Fields Nat) (s : State) : Host.Outcome State Fault Refusal :=
  .next (requestWith s 0x92 [] a (fun _ => []) fun m e =>
    let e := e.onPort fun p => { p with enables := BitVec.ofNat 8 m }
    e.ok 0x92 e.enablesAnswer)

/-- SET MASTER ENABLE (R186). -/
def execSetMasterEnable (a : Fields Nat) (s : State) : Host.Outcome State Fault Refusal :=
  .next (requestWith s 0x93 [] a (fun v => [rangeIf (yesNo v).isNone]) fun v e =>
    let e := e.onPort fun p => { p with master := (yesNo v).getD false }
    e.ok 0x93 e.enablesAnswer)

/-- The host ends a select: no byte changes nothing; otherwise the request buffer takes the bytes, the part has shifted out the
idle value in a request select, and the command that the bytes spell joins the queue (R179 to R181). -/
def State.hostSelect (m : PortMoment) (bytes : List Byte) (s : State) : State :=
  match bytes with
  | [] => s
  | b :: _ =>
    let p := { s.port with requestBuffer := requestBufferOf bytes }
    let s := { s with port := if b = fetchCode then p else { p with spiOut := .idle } }
    match decodeSelect m bytes with
    | none => s
    | some c => { s with pending := s.pending ++ [c] }

end Sys2Proof.Machine
end

