-- ==== Sys2Proof/Machine/ProgrammeCommands.lean ====
section
/-! DEFINITION. The commands of the Programme Table (R74 to R90). -/

namespace Sys2Proof.Machine

/-- Adds an entry at a free handle (R79, R81). -/
def Ev.addEntry (h : Nat) (r : EntryRec) (e : Ev) : Ev :=
  let row := r.row (r.stateNow e.now) e.now
  ((((e.onStore fun st => (st.writeEntry h r).putSlot .entry h).onGraph (Graph.setEntry h (some { venue := r.venue }))).onProg
    (Programme.setRow h (some row))).tell .entry)

/-- The checks of ADD ENTRY after the mode (R79, steps 3 to 7). -/
def State.addChecks (s : State) (a : AddEntry) : List Check :=
  [rangeIf a.rev.isSome, rangeIf a.record.isNone] ++ s.venueChecks a.venue ++
    [{ refuses := s.store.freeHandle.isNone, status := .full },
     rangeIf (a.record.any fun r => r.isOver s.now s.prog.linger)]

/-- ADD ENTRY (R79, R80, R81). -/
def execAddEntry (a : Fields AddEntry) (s : State) : Host.Outcome State Fault Refusal :=
  .next (requestWith s 0x40 [s.notInMuster] a s.addChecks fun a e =>
    match a.record, e.store.freeHandle with
    | some r, some h =>
      let e := e.addEntry h r
      e.okOr a.adjusted 0x40 (num1 h ++ num1 (e.store.rev .entry h) ++ num2 r.duration ++ num1 r.lead)
    | _, _ => e)

/-- The words that hold the fields a CHANGE ENTRY names, in ascending order (R2, R82). -/
def changeEntryWords (a : ChangeEntry) : List Nat :=
  (if a.title.isSome then entryTitle a.index else []) ++
    if a.venue.isSome || a.timing || a.audience.isSome || a.highlight.isSome then entryRest a.index else []

/-- The state that the schedule holds of an entry. -/
def Programme.stateOf (p : Programme) (h : Nat) : EntryState := ((p.row h).map ScheduleRow.state).getD .scheduled

/-- An entry whose state is ENDED or CANCELLED (R82, R84). -/
def Programme.isFinal (p : Programme) (h : Nat) : Check :=
  { refuses := p.stateOf h = .ended || p.stateOf h = .cancelled, status := .final }

/-- The timing that a CHANGE ENTRY would give, taken from the schedule's copies (R75, R83). -/
def State.newTiming (s : State) (a : ChangeEntry) : EntryRec :=
  match s.prog.row a.index with
  | none => {}
  | some r => a.apply { start := r.start, duration := r.finish - r.start, lead := r.lead }

/-- The checks of CHANGE ENTRY after the mode (R12, R82). -/
def State.changeEntryChecks (s : State) (a : ChangeEntry) : List Check :=
  s.changeChecks .entry a.index a.rev ++ [rangeIf (!a.valid)] ++ s.venueChecks (a.venue.bind id) ++
    [s.prog.isFinal a.index, rangeIf (a.timing && (s.newTiming a).isOver s.now s.prog.linger)]

/-- The write of the named fields (R82). -/
def Ev.changeEntry (a : ChangeEntry) (e : Ev) : Ev :=
  let h := a.index
  let r := a.apply (e.store.entryRec h)
  let e := e.onStore fun st => (st.writeEntry h r).changeSlot .entry h (changeEntryWords a)
  let e := if a.venue.isSome then e.onGraph (Graph.setEntry h (some { venue := r.venue })) else e
  let e :=
    if a.timing then e.onProg fun p => p.setRow h ((p.row h).map fun row => row.retimed (e.newTiming a) e.now) else e
  e.tell .entry

/-- What CHANGE ENTRY answers: the new revision and state, and the values applied (R80, R82; log 14). -/
def State.changeEntryAnswer (s : State) (h : Nat) : List Byte :=
  let row := s.prog.row h
  num1 (s.store.rev .entry h) ++ num1 (s.prog.stateOf h).code ++
    num2 ((row.map fun r => r.finish - r.start).getD 0) ++ num1 ((row.map ScheduleRow.lead).getD 0)

/-- CHANGE ENTRY (R80, R82, R83). -/
def execChangeEntry (a : Fields ChangeEntry) (s : State) : Host.Outcome State Fault Refusal :=
  .next (requestWith s 0x41 [s.notInMuster] a s.changeEntryChecks fun a e =>
    match e.read (.slot .entry a.index) (changeEntryWords a) with
    | (e, .content) =>
      let e := e.changeEntry a
      e.okOr a.adjusted 0x41 (e.changeEntryAnswer a.index)
    | (e, _) => e.damagedAnswer 0x41 (.slot .entry a.index))

/-- The write of a cancellation (R84). -/
def Ev.cancelEntry (h : Nat) (e : Ev) : Ev :=
  let now := e.now
  let e := e.onStore fun st =>
    (st.writeEntry h { st.entryRec h with cancelled := now }).changeSlot .entry h (entryRest h)
  (e.onProg fun p => p.setRow h ((p.row h).map fun row =>
    { row with state := .cancelled, since := now, cancelled := now, capturePending := now.isNone })).tell .entry

/-- CANCEL ENTRY (R84). -/
def execCancelEntry (a : Fields SlotArg) (s : State) : Host.Outcome State Fault Refusal :=
  .next (requestWith s 0x42 [s.notInMuster] a
    (fun a => s.changeChecks .entry a.index a.rev ++ [s.prog.isFinal a.index]) fun a e =>
      match e.read (.slot .entry a.index) (entryRest a.index) with
      | (e, .content) =>
        let e := e.cancelEntry a.index
        e.ok 0x42 (num1 (e.store.rev .entry a.index) ++ opt3 e.now)
      | (e, _) => e.damagedAnswer 0x42 (.slot .entry a.index))

/-- RETIRE ENTRY (R86). -/
def execRetireEntry (a : Fields SlotArg) (s : State) : Host.Outcome State Fault Refusal :=
  .next (requestWith s 0x43 [s.notInMuster] a (fun a => s.removeChecks .entry a.index a.rev) fun a e =>
    let e := e.retireEntry a.index
    e.ok 0x43 (num1 (e.store.rev .entry a.index)))

/-- A new linger, applied at once while the clock holds a value (R87). -/
def Ev.setLinger (n : Nat) (e : Ev) : Ev :=
  let e := e.onProg fun p => { p with linger := clampLead n }
  match e.now with
  | none => e
  | some now => e.retireDue now

/-- SET LINGER (R87). -/
def execSetLinger (a : Fields Nat) (s : State) : Host.Outcome State Fault Refusal :=
  .next (requestWith s 0x44 [s.notInMuster] a (fun _ => []) fun n e =>
    (e.setLinger n).okOr (clampLead n ≠ n) 0x44 (num1 (clampLead n)))

/-- An entry's stored fields before its state (R74). -/
def EntryRec.bytes (r : EntryRec) : List Byte :=
  textBytes r.title ++ opt1 r.venue ++ num3 r.start ++ num2 r.duration ++ num1 r.lead ++ num1 r.audience.code ++
    flag r.highlight

/-- The fields of GET ENTRY: the stored fields, state, state since, revision (R88). -/
def State.entryAnswer (s : State) (h : Nat) : List Byte :=
  let r := s.store.entryRec h
  r.bytes ++ opt3 r.cancelled ++ num1 (s.prog.stateOf h).code ++ opt3 ((s.prog.row h).bind ScheduleRow.since) ++
    num1 (s.store.rev .entry h)

/-- GET ENTRY (R88). -/
def execGetEntry (a : Fields Nat) (s : State) : Host.Outcome State Fault Refusal :=
  .next (requestWith s 0x45 [] a (fun h => [rangeCheck .entry h]) fun h e =>
    e.getSlot 0x45 .entry h fun s => s.entryAnswer h)

/-- One entry of LIST ENTRIES (R89). -/
def State.listAnswer (s : State) (h : Nat) (row : ScheduleRow) : List Byte :=
  let r := s.store.entryRec h
  num1 h ++ r.bytes ++ num1 row.state.code ++ opt3 row.since ++ opt3 r.cancelled ++ num1 (s.store.rev .entry h)

/-- Reads entries in turn and collects whole elements while they fit in `room` bytes, at most `k`; answers them, and whether a
qualifying entry follows (R89, R192). -/
def Ev.collect : Nat → Nat → List (Nat × ScheduleRow) → Ev → Ev × List (List Byte) × Bool
  | _, _, [], e => (e, [], false)
  | k, room, p :: rest, e =>
    if k = 0 then (e, [], true) else
    match e.readWhole (.slot .entry p.1) with
    | (e, .content) =>
      let element := e.listAnswer p.1 p.2
      if room < element.length then (e, [], true)
      else
        let (e, elements, more) := Ev.collect (k - 1) (room - element.length) rest e
        (e, element :: elements, more)
    | (e, _) => Ev.collect k room rest e

/-- LIST ENTRIES (R89, R192). A payload holds the count, the elements and the flag. -/
def execListEntries (a : Fields ListEntries) (s : State) : Host.Outcome State Fault Refusal :=
  .next (requestWith s 0x46 [] a
    (fun a => [rangeIf (!(a.minute ≤ Config.lastMinute && inRangeOpt 0 255 a.handle))]) fun a e =>
      let (e, elements, more) :=
        Ev.collect 8 (Config.maxPayload - 2) (e.listed.filter (qualifies a.minute (a.handle.getD 0))) e
      e.ok 0x46 (listBytes elements ++ flag more))

/-- READ PROGRAMME (R90). -/
def execReadProgramme (s : State) : Host.Outcome State Fault Refusal :=
  .next (upkeep s 0x47 fun e =>
    e.ok 0x47 (num2 e.prog.rows.length ++ opt2 e.store.freeHandle ++ num1 e.prog.linger))

end Sys2Proof.Machine
end

