-- ==== Sys2Proof/Machine/RouteCommands.lean ====
section
/-! DEFINITION. The commands of the Route Engine (R52 to R61). -/

namespace Sys2Proof.Machine

/-- COMPUTATION_COMPLETES (R52, R54, R56, R57; log 18). -/
def execComputationCompletes (s : State) : Host.Outcome State Fault Refusal :=
  if s.routes.engine.isNone then .next s else .next (Ev.start s).completeComputation.finish

/-- COMPUTATION_SEGMENT_READ: the computation in flight reads a PRESENT, undamaged segment that it has not read (R52). -/
def execComputationSegmentRead (k : Nat) (s : State) : Host.Outcome State Fault Refusal :=
  if s.unreadSegments.contains k then .next ((Ev.start s).readSegment k).finish else .next s

/-- Walking minutes as an answer carries them, in the form of a MINUTES or PHRASE item (R61, R192; log 15). -/
def walkingBytes (w : Walking) : List Byte :=
  match w with
  | .minutes n => (Item.minutes n).bytes false
  | .phrase p => num1 1 ++ num1 p

/-- The fields of LOOK UP ROUTE (R59). -/
def lookUpAnswer (c : ColState) (m : Mode) (cell : Cell) (arrow : Option Arrow) : List Byte :=
  num1 c.code ++ opt3 cell.dist ++ opt2 cell.next ++ opt1 (arrow.map Arrow.code) ++ walkingBytes (walking m cell.dist) ++
    flag (c = .stale)

/-- The part of LOOK UP ROUTE after its checks (R59). A cell found damaged by this read is withdrawn with the event's other
findings (R6); one whose flag stands already is withdrawn here, as R47 states. -/
def Ev.lookUp (t x : Nat) (e : Ev) : Ev :=
  let c := e.routes.col t
  if c = .empty then e.ok 0x30 (lookUpAnswer .empty e.mode.mode {} none) else
  match e.read (.cell t x) [cellWord t x] with
  | (e, .content) =>
    let cell := e.store.cell t x
    e.ok 0x30 (lookUpAnswer c e.mode.mode cell (cell.next.bind fun k => e.graph.arrowAt k x))
  | (e, .damaged) => (e.cellDamaged t x).damagedAnswer 0x30 (.cell t x)
  | (e, .finding) => e.damagedAnswer 0x30 (.cell t x)

/-- LOOK UP ROUTE (R59). -/
def execLookUpRoute (a : Fields LookUp) (s : State) : Host.Outcome State Fault Refusal :=
  .next (requestWith s 0x30 [] a
    (fun a => [rangeIf (!(a.target < Config.targets && a.node < Config.nodes))])
    fun a e => e.lookUp a.target a.node)

/-- RECOMPUTE ALL (R58). -/
def execRecomputeAll (s : State) : Host.Outcome State Fault Refusal :=
  .next (upkeep s 0x31 fun e => e.markAll.ok 0x31 [])

/-- The fields of READ ROUTE ENGINE (R60). DESIGN CHOICE: the states of columns 0..39 go as 40 bytes with no count byte (R190
gives a List one, and does not say whether this fixed set is a List); log 42. -/
def Routes.answer (r : Routes) : List Byte :=
  flag r.engine.isSome ++ groupBytes (r.engine.map fun c => num1 c.column ++ flag c.overtaken) ++
    listBytes (r.queue.map fun q => num1 q.column) ++
    (List.range Config.targets).flatMap fun t => num1 (r.col t).code

/-- READ ROUTE ENGINE (R60). -/
def execReadRouteEngine (s : State) : Host.Outcome State Fault Refusal :=
  .next (upkeep s 0x32 fun e => e.ok 0x32 e.routes.answer)

end Sys2Proof.Machine
end

