-- ==== Sys2Proof/Machine/ScreenCommands.lean ====
section
/-! DEFINITION. The commands of the Composer (R146 to R160). -/

namespace Sys2Proof.Machine

/-- Writes screen n (R147). -/
def Store.putScreen (st : Store) (n : Nat) (r : ScreenRec) : Store :=
  { st with screens := Table.set {} st.screens n r }.putSlot .screen n

/-- The presence and kind that the Panel Link is told (R147). -/
def presenceOf : ScreenKind → ScreenPresence
  | .wall => .wall
  | .kiosk => .kiosk

/-- An accepted PUT SCREEN (R147). -/
def Ev.putScreen (n : Nat) (r : ScreenRec) (e : Ev) : Ev :=
  let e := (e.onStore fun st => st.putScreen n r).onGraph (Graph.setScreen n (some { node := r.node, targets := r.targets }))
  (e.tellPresence n (presenceOf r.kind)).tell (.screen n)

/-- The checks of PUT SCREEN after the mode (R12, R26, R146). -/
def State.putScreenChecks (s : State) (a : PutScreen) : List Check :=
  s.putChecks .screen a.index a.rev ++
    [ rangeIf a.record.isNone, s.store.nodeCheck a.node,
      { refuses := a.targets.any fun t => !s.store.present .target t, status := .reference } ]

/-- PUT SCREEN (R146, R147). -/
def execPutScreen (a : Fields PutScreen) (s : State) : Host.Outcome State Fault Refusal :=
  .next (requestWith s 0x78 [s.normalOnly] a s.putScreenChecks fun a e =>
    match a.record with
    | none => e
    | some r =>
      let e := e.putScreen a.index r
      e.ok 0x78 (num1 (e.store.rev .screen a.index)))

/-- An accepted REMOVE SCREEN (R148). -/
def Ev.removeScreen (n : Nat) (e : Ev) : Ev :=
  let e := (e.onStore fun st => st.removeSlot .screen n).onGraph (Graph.setScreen n none)
  (e.tellPresence n .absent).tell (.screen n)

/-- REMOVE SCREEN (R148). -/
def execRemoveScreen (a : Fields SlotArg) (s : State) : Host.Outcome State Fault Refusal :=
  .next (requestWith s 0x79 [s.normalOnly] a (fun a => s.removeChecks .screen a.index a.rev) fun a e =>
    (e.removeScreen a.index).ok 0x79 [])

/-- A screen's stored fields (R146). -/
def ScreenRec.bytes (r : ScreenRec) : List Byte :=
  num1 r.node ++ num1 r.kind.code ++ num1 r.bank ++ listBytes (r.targets.map num1) ++ num1 r.filter.code ++ num1 r.lines ++
    opt1 r.station ++ flag r.beacon

/-- GET SCREEN (R148). -/
def execGetScreen (a : Fields Nat) (s : State) : Host.Outcome State Fault Refusal :=
  .next (requestWith s 0x7A [] a (fun n => [rangeCheck .screen n]) fun n e =>
    e.getSlot 0x7A .screen n fun s => (s.store.screenRec n).bytes ++ num1 (s.store.rev .screen n))

/-- As many whole elements as fit in `room` bytes (R192). -/
def fitting : Nat → List (List Byte) → List (List Byte)
  | _, [] => []
  | room, l :: rest => if room < l.length then [] else l :: fitting (room - l.length) rest

/-- The fields of READ SCREEN CONTENT (R160, R192): presence, DAMAGED flag, version, number of lines, whole lines from the
first asked for. -/
def State.contentAnswer (s : State) (n first : Nat) : List Byte :=
  let c := s.composer.screen n
  let head := num1 (presenceCode (s.store.present .screen n)) ++ flag (s.store.isDamaged (.slot .screen n)) ++
    num2 c.version ++ num1 c.content.length
  let lines := (c.content.drop first).map (lineBytes false)
  head ++ listBytes (fitting (Config.maxPayload - 1 - head.length) lines)

/-- READ SCREEN CONTENT (R160). -/
def execReadScreenContent (a : Fields ReadContent) (s : State) : Host.Outcome State Fault Refusal :=
  .next (requestWith s 0x7B [] a
    (fun a => [rangeCheck .screen a.index, rangeIf (!inRangeOpt 0 11 a.first)]) fun a e =>
      e.ok 0x7B (e.contentAnswer a.index (a.first.getD 0)))

/-- A phrase slot of a bank (R1, R150). -/
def phraseRange (bank p : Nat) : Check := rangeIf (!(bank < Config.banks && inRange 16 127 p))

/-- PUT PHRASE (R150). -/
def execPutPhrase (a : Fields PutPhrase) (s : State) : Host.Outcome State Fault Refusal :=
  .next (requestWith s 0x7C [s.notInMuster] a
    (fun a => [phraseRange a.bank a.phrase, s.store.revCheck .phrase (phraseIndex a.bank a.phrase) a.rev,
      rangeIf (!textIn 1 48 a.text)])
    fun a e =>
      let i := phraseIndex a.bank a.phrase
      let e := (e.onStore fun st => { st with phrases := Table.set [] st.phrases i a.text }.putSlot .phrase i).tell (.bank a.bank)
      e.ok 0x7C (num1 (e.store.rev .phrase i)))

/-- GET PHRASE (R150). -/
def execGetPhrase (a : Fields PhraseName) (s : State) : Host.Outcome State Fault Refusal :=
  .next (requestWith s 0x7D [] a
    (fun a => [rangeIf (!(a.bank < Config.banks && a.phrase < 128))]) fun a e =>
      if a.phrase < 16 then e.ok 0x7D (textBytes (Config.romText a.bank a.phrase))
      else
        let i := phraseIndex a.bank a.phrase
        e.getSlot 0x7D .phrase i fun s => textBytes (Table.get [] s.store.phrases i) ++ num1 (s.store.rev .phrase i))

end Sys2Proof.Machine
end

