-- ==== Sys2Proof/Machine/StoreCommands.lean ====
section
/-! DEFINITION. The commands of the Record Store (R13 to R20). -/

namespace Sys2Proof.Machine

/-- What READ SLOT answers of a place (R19). -/
def Store.slotAnswer (st : Store) : Place → List Byte
  | .slot k i => num1 (presenceCode (st.present k i)) ++ num1 (st.rev k i) ++ flag (st.isDamaged (.slot k i))
  | .cell t x => flag (st.isDamaged (.cell t x))

/-- READ SLOT (R19). -/
def execReadSlot (a : Fields RecordName) (s : State) : Host.Outcome State Fault Refusal :=
  .next (requestWith s 0x10 [] a (fun a => [rangeIf (namedPlace a).isNone]) fun a e =>
    e.ok 0x10 (((namedPlace a).map e.store.slotAnswer).getD []))

/-- The names of the damaged slots and cells from a place onward, in store order (R20). -/
def Store.damagedFrom (st : Store) (p : Place) : List Nat :=
  (st.damage.filter fun d => d.2 && p.name ≤ d.1).map Prod.fst

/-- What LIST DAMAGE answers: up to 16 names, and whether more follow (R20). -/
def Store.damageAnswer (st : Store) (p : Place) : List Byte :=
  let names := st.damagedFrom p
  listBytes ((names.take 16).map num3) ++ flag (16 < names.length)

/-- LIST DAMAGE (R20). -/
def execListDamage (a : Fields RecordName) (s : State) : Host.Outcome State Fault Refusal :=
  .next (requestWith s 0x11 [] a (fun a => [rangeIf (namedPlace a).isNone]) fun a e =>
    e.ok 0x11 (((namedPlace a).map e.store.damageAnswer).getD []))

/-- The store-health record (R13). -/
def Store.healthAnswer (st : Store) : List Byte :=
  num2 st.corrected ++ optPlaceBytes st.firstDamaged ++ num1 (alertCode st.alert) ++ flag st.sweep.isSome ++
    optPlaceBytes (st.sweep.map Sweep.position) ++
    groupBytes (st.lastSweep.map fun l => optTimeBytes l.endTime ++ num2 l.corrections ++ num2 l.damaged)

/-- READ STORE HEALTH (R13). -/
def execReadStoreHealth (s : State) : Host.Outcome State Fault Refusal :=
  .next (upkeep s 0x12 fun e => e.ok 0x12 e.store.healthAnswer)

/-- CLEAR STORE ALERT (R15). -/
def execClearStoreAlert (s : State) : Host.Outcome State Fault Refusal :=
  .next (upkeep s 0x13 fun e =>
    (e.onStore fun st => { st with corrected := 0, firstDamaged := none, alert := false }).ok 0x13 [])

/-- SWEEP STORE (R16). -/
def execSweepStore (s : State) : Host.Outcome State Fault Refusal :=
  .next (request s 0x14 [{ refuses := s.store.sweep.isSome, status := .busy }] fun e =>
    (e.onStore fun st => { st with sweep := some {} }).ok 0x14 [])

/-- The sweep reads a place: a PRESENT slot or a cell, its flag clear (R17). -/
def Store.sweepReads (st : Store) (p : Place) : Bool :=
  !st.isDamaged p &&
    match p with
    | .slot k i => st.present k i
    | .cell _ _ => true

/-- The first place from `p` onward that the sweep reads; there are 9,608 places (R1, R17). -/
def Store.sweepNext (st : Store) : Nat → Place → Option Place
  | 0, _ => none
  | fuel + 1, p =>
    if st.sweepReads p then some p else
    match p.next with
    | none => none
    | some q => st.sweepNext fuel q

/-- A change of the running sweep. -/
def Store.onSweep (f : Sweep → Sweep) (st : Store) : Store := { st with sweep := st.sweep.map f }

/-- The sweep reads one place, and its position moves on (R17; log 33). -/
def Ev.sweepRead (sw : Sweep) (e : Ev) : Ev :=
  match e.store.sweepNext 9608 sw.position with
  | none => e.onStore (Store.onSweep fun sw => { sw with passed := true })
  | some p =>
    let e := (e.onStore (Store.onSweep fun sw => { sw with position := p })).read p p.words true
    e.1.onStore (Store.onSweep fun sw =>
      match p.next with
      | none => { sw with passed := true }
      | some q => { sw with position := q })

/-- SWEEP_READ (R17). -/
def execSweepRead (s : State) : Host.Outcome State Fault Refusal :=
  match s.store.sweep with
  | none => .next s
  | some sw => if sw.passed then .next s else .next ((Ev.start s).sweepRead sw).finish

/-- The places, from the sweep's position on, in which a word may hold an error, each once, in store order (R2, R17). -/
def Store.suspects (st : Store) (sw : Sweep) : List Place :=
  if sw.passed then []
  else ((st.ramErrors.map fun p => placeOfWord p.1).filter fun p => sw.position.name ≤ p.name).eraseDups

/-- The sweep's read of one place, an event of its own. -/
def Ev.sweepSuspect (e : Ev) (p : Place) : Ev :=
  if e.store.sweepReads p then (e.read p p.words true).1.settle else e

/-- The last-sweep result is written and the sweep is over (R18, R73). -/
def Store.endSweep (st : Store) (sw : Sweep) (now : Option ShipTime) : Store :=
  { st with lastSweep := some { endTime := now, corrections := sw.corrections, damaged := sw.damaged }, sweep := none }

/-- SWEEP_ENDS: the rest of the sweep's reads, of which those of clean words change nothing, and its end (R17, R18;
log 18). -/
def execSweepEnds (s : State) : Host.Outcome State Fault Refusal :=
  match s.store.sweep with
  | none => .next s
  | some sw =>
    let e := (s.store.suspects sw).foldl Ev.sweepSuspect (Ev.start s)
    .next (e.onStore fun st => st.endSweep (st.sweep.getD sw) e.captured).finish

/-- The first pending correction of a word goes; it is written back, unless the word has been rewritten since its read, and
then another pending correction of the word finds it rewritten (R5). -/
def Store.writeBack (w : Nat) (st : Store) : Store :=
  match st.writeBacks.find? fun b => b.word = w with
  | none => st
  | some b =>
    let rest := { st with writeBacks := st.writeBacks.erase b }
    if b.rewritten then rest else rest.writeWords [w]

/-- CORRECTION_WRITE_BACK (R5). -/
def execCorrectionWriteBack (w : Nat) (s : State) : Host.Outcome State Fault Refusal :=
  .next { s with store := s.store.writeBack w }

end Sys2Proof.Machine
end

