-- ==== Sys2Proof/Machine/Dispatch.lean ====
section
/-! DEFINITION. One arm for each command, in the order of spec/opcode_table.json: a direct call of its meaning. -/

namespace Sys2Proof.Machine

def exec (i : Instr) (s : State) : Host.Outcome State Fault Refusal :=
  match i with
  | .powerOnReset => Sys2Proof.Machine.execPowerOnReset s
  | .pinReset => Sys2Proof.Machine.execPinReset s
  | .fetch moment => Sys2Proof.Machine.execFetch moment s
  | .stoppedFrame bytes => Sys2Proof.Machine.execStoppedFrame bytes s
  | .discardedRequest => Sys2Proof.Machine.execDiscardedRequest s
  | .readSlot a => Sys2Proof.Machine.execReadSlot a s
  | .listDamage a => Sys2Proof.Machine.execListDamage a s
  | .readStoreHealth => Sys2Proof.Machine.execReadStoreHealth s
  | .clearStoreAlert => Sys2Proof.Machine.execClearStoreAlert s
  | .sweepStore => Sys2Proof.Machine.execSweepStore s
  | .sweepRead => Sys2Proof.Machine.execSweepRead s
  | .sweepEnds => Sys2Proof.Machine.execSweepEnds s
  | .correctionWriteBack word => Sys2Proof.Machine.execCorrectionWriteBack word s
  | .putNode a => Sys2Proof.Machine.execPutNode a s
  | .removeNode a => Sys2Proof.Machine.execRemoveNode a s
  | .getNode a => Sys2Proof.Machine.execGetNode a s
  | .putSegment a => Sys2Proof.Machine.execPutSegment a s
  | .removeSegment a => Sys2Proof.Machine.execRemoveSegment a s
  | .setSegmentState a => Sys2Proof.Machine.execSetSegmentState a s
  | .getSegment a => Sys2Proof.Machine.execGetSegment a s
  | .putTarget a => Sys2Proof.Machine.execPutTarget a s
  | .removeTarget a => Sys2Proof.Machine.execRemoveTarget a s
  | .getTarget a => Sys2Proof.Machine.execGetTarget a s
  | .readReferences a => Sys2Proof.Machine.execReadReferences a s
  | .lockTopology => Sys2Proof.Machine.execLockTopology s
  | .computationCompletes => Sys2Proof.Machine.execComputationCompletes s
  | .lookUpRoute a => Sys2Proof.Machine.execLookUpRoute a s
  | .recomputeAll => Sys2Proof.Machine.execRecomputeAll s
  | .readRouteEngine => Sys2Proof.Machine.execReadRouteEngine s
  | .tick64Hz beams alarm => Sys2Proof.Machine.execTick64Hz beams alarm s
  | .tick16Hz => Sys2Proof.Machine.execTick16Hz s
  | .tick1Hz => Sys2Proof.Machine.execTick1Hz s
  | .minuteBoundary => Sys2Proof.Machine.execMinuteBoundary s
  | .clockReachesLimit => Sys2Proof.Machine.execClockReachesLimit s
  | .setClock a => Sys2Proof.Machine.execSetClock a s
  | .shiftClock a => Sys2Proof.Machine.execShiftClock a s
  | .readClock => Sys2Proof.Machine.execReadClock s
  | .addEntry a => Sys2Proof.Machine.execAddEntry a s
  | .changeEntry a => Sys2Proof.Machine.execChangeEntry a s
  | .cancelEntry a => Sys2Proof.Machine.execCancelEntry a s
  | .retireEntry a => Sys2Proof.Machine.execRetireEntry a s
  | .setLinger a => Sys2Proof.Machine.execSetLinger a s
  | .getEntry a => Sys2Proof.Machine.execGetEntry a s
  | .listEntries a => Sys2Proof.Machine.execListEntries a s
  | .readProgramme => Sys2Proof.Machine.execReadProgramme s
  | .putStation a => Sys2Proof.Machine.execPutStation a s
  | .removeStation a => Sys2Proof.Machine.execRemoveStation a s
  | .getStation a => Sys2Proof.Machine.execGetStation a s
  | .readStation a => Sys2Proof.Machine.execReadStation a s
  | .putEntrance a => Sys2Proof.Machine.execPutEntrance a s
  | .removeEntrance a => Sys2Proof.Machine.execRemoveEntrance a s
  | .getEntrance a => Sys2Proof.Machine.execGetEntrance a s
  | .readEntrance a => Sys2Proof.Machine.execReadEntrance a s
  | .secure a => Sys2Proof.Machine.execSecure a s
  | .markUnsafe a => Sys2Proof.Machine.execMarkUnsafe a s
  | .reopen a => Sys2Proof.Machine.execReopen a s
  | .setHeadCount a => Sys2Proof.Machine.execSetHeadCount a s
  | .readRoll a => Sys2Proof.Machine.execReadRoll a s
  | .takenChange entrance first second => Sys2Proof.Machine.execTakenChange entrance first second s
  | .stuckBeamFault entrance first second => Sys2Proof.Machine.execStuckBeamFault entrance first second s
  | .faultCleared entrance first second => Sys2Proof.Machine.execFaultCleared entrance first second s
  | .lampPhaseTurn line => Sys2Proof.Machine.execLampPhaseTurn line s
  | .putCabin a => Sys2Proof.Machine.execPutCabin a s
  | .changeCabin a => Sys2Proof.Machine.execChangeCabin a s
  | .setService a => Sys2Proof.Machine.execSetService a s
  | .removeCabin a => Sys2Proof.Machine.execRemoveCabin a s
  | .getCabin a => Sys2Proof.Machine.execGetCabin a s
  | .findCabin a => Sys2Proof.Machine.execFindCabin a s
  | .collectServiceChanges => Sys2Proof.Machine.execCollectServiceChanges s
  | .startDrill => Sys2Proof.Machine.execStartDrill s
  | .endDrill => Sys2Proof.Machine.execEndDrill s
  | .startMuster => Sys2Proof.Machine.execStartMuster s
  | .endMuster => Sys2Proof.Machine.execEndMuster s
  | .readMode => Sys2Proof.Machine.execReadMode s
  | .takenAssertion => Sys2Proof.Machine.execTakenAssertion s
  | .takenRelease => Sys2Proof.Machine.execTakenRelease s
  | .filterSettles => Sys2Proof.Machine.execFilterSettles s
  | .putScreen a => Sys2Proof.Machine.execPutScreen a s
  | .removeScreen a => Sys2Proof.Machine.execRemoveScreen a s
  | .getScreen a => Sys2Proof.Machine.execGetScreen a s
  | .readScreenContent a => Sys2Proof.Machine.execReadScreenContent a s
  | .putPhrase a => Sys2Proof.Machine.execPutPhrase a s
  | .getPhrase a => Sys2Proof.Machine.execGetPhrase a s
  | .send => Sys2Proof.Machine.execSend s
  | .ack address version => Sys2Proof.Machine.execAck address version s
  | .sendNoAnswer => Sys2Proof.Machine.execSendNoAnswer s
  | .probeDue address => Sys2Proof.Machine.execProbeDue address s
  | .probe => Sys2Proof.Machine.execProbe s
  | .probeNoAnswer => Sys2Proof.Machine.execProbeNoAnswer s
  | .kioskPollDue address => Sys2Proof.Machine.execKioskPollDue address s
  | .kioskPoll => Sys2Proof.Machine.execKioskPoll s
  | .nothing address => Sys2Proof.Machine.execNothing address s
  | .routeQuery address target => Sys2Proof.Machine.execRouteQuery address target s
  | .programmeQuery address minute audience => Sys2Proof.Machine.execProgrammeQuery address minute audience s
  | .kioskPollNoAnswer => Sys2Proof.Machine.execKioskPollNoAnswer s
  | .reply => Sys2Proof.Machine.execReply s
  | .replyNoAnswer => Sys2Proof.Machine.execReplyNoAnswer s
  | .tagSend => Sys2Proof.Machine.execTagSend s
  | .accepted address => Sys2Proof.Machine.execAccepted address s
  | .busy address => Sys2Proof.Machine.execBusy address s
  | .tagSendNoAnswer => Sys2Proof.Machine.execTagSendNoAnswer s
  | .donePollDue address together => Sys2Proof.Machine.execDonePollDue address together s
  | .donePoll => Sys2Proof.Machine.execDonePoll s
  | .done address button => Sys2Proof.Machine.execDone address button s
  | .refreshing address button => Sys2Proof.Machine.execRefreshing address button s
  | .donePollNoAnswer => Sys2Proof.Machine.execDonePollNoAnswer s
  | .refreshTimeout address => Sys2Proof.Machine.execRefreshTimeout address s
  | .rotationPollDue => Sys2Proof.Machine.execRotationPollDue s
  | .statusPoll => Sys2Proof.Machine.execStatusPoll s
  | .status address button => Sys2Proof.Machine.execStatus address button s
  | .statusPollNoAnswer => Sys2Proof.Machine.execStatusPollNoAnswer s
  | .readScreenLink a => Sys2Proof.Machine.execReadScreenLink a s
  | .readTagLink a => Sys2Proof.Machine.execReadTagLink a s
  | .readLinkQueues => Sys2Proof.Machine.execReadLinkQueues s
  | .readStatus => Sys2Proof.Machine.execReadStatus s
  | .clearNotices a => Sys2Proof.Machine.execClearNotices a s
  | .setNoticeEnables a => Sys2Proof.Machine.execSetNoticeEnables a s
  | .setMasterEnable a => Sys2Proof.Machine.execSetMasterEnable a s
  | .restart => Sys2Proof.Machine.execRestart s
  | .computationSegmentRead segment => Sys2Proof.Machine.execComputationSegmentRead segment s

end Sys2Proof.Machine
end

