-- ==== Sys2Proof/Safety.lean ====
section
/-! DEFINITION. The terms in which statements about the part speak: the canonical form of its tables, the ranges that the
manual gives its counts, the session that a mode implies, the recompute queue, and what the end of an event leaves alone. -/

namespace Sys2Proof.Machine

/-! ### The canonical form. -/

/-- Every table of the record store is in its canonical form. -/
def Store.wf (st : Store) : Bool :=
  Table.wf {} st.dir && Table.wf false st.damage && Table.wf {} st.nodes && Table.wf {} st.segments &&
    Table.wf {} st.targets && Table.wf {} st.stations && Table.wf {} st.entrances && Table.wf {} st.entries &&
    Table.wf {} st.cabins && Table.wf {} st.screens && Table.wf [] st.phrases && Table.wf {} st.cells &&
    Table.wf .clean st.ramErrors

def Graph.wf (g : Graph) : Bool :=
  Table.wf none g.refSegments && Table.wf none g.refTargets && Table.wf none g.refStations && Table.wf none g.refScreens &&
    Table.wf none g.refCabins && Table.wf none g.refEntries

def Muster.wf (m : Muster) : Bool :=
  Table.wf none m.stationSettings && Table.wf {} m.stations && Table.wf none m.effective &&
    Table.wf none m.entranceSettings && Table.wf {} m.beams && Table.wf {} m.decoders && Table.wf none m.roster &&
    m.roll.all (fun r => Table.wf none r.rows) && Table.wf {} m.lamps

/-- Every table of the state is in its canonical form. -/
def State.wf (s : State) : Bool :=
  s.store.wf && s.graph.wf && Table.wf .empty s.routes.cols && Table.wf none s.prog.schedule && s.muster.wf &&
    Table.wf none s.cabinTable.summaries && Table.wf {} s.composer.screens && Table.wf {} s.composer.tags &&
    Table.wf {} s.scr.links && Table.wf {} s.tag.links

/-! ### Ranges and relations that hold of every reachable state. -/

/-- The ranges of the counts, of the handles in the schedule and of the cabins with a summary, and the ticks of the divider: it
stands at a whole number of 64 Hz periods, and a tick that is due of another tap has fallen there (R5, R10, R63, R75, R87, R104,
R120, R134, R151). -/
structure State.InRange (s : State) : Prop where
  divider : s.time.divider % 512 = 0
  due16 : s.time.due16 = true → s.time.divider % 2048 = 0
  due1 : s.time.due1 = true → s.time.divider = 0
  revision : ∀ k i, s.store.rev k i ≤ 255
  corrected : s.store.corrected ≤ 65535
  linger : s.prog.linger ≤ 60
  head : ∀ n, (s.muster.live n).head ≤ 1999
  unmatched : ∀ n, (s.muster.live n).unmatched ≤ 255
  ambiguous : ∀ n, (s.muster.live n).ambiguous ≤ 255
  changes : s.mode.changeCount ≤ 65535
  screenVersion : ∀ n, (s.composer.screen n).version ≤ 65535
  tagVersion : ∀ n, (s.composer.tag n).version ≤ 65535
  handles : ∀ h, s.prog.row h ≠ none → h < 256
  cabins : ∀ n, s.cabinTable.summary n ≠ none → n < 512

/-- The session that a mode implies (R112 to R114). -/
def Mode.session : Mode → Option SessionKind
  | .normal => none
  | .drill => some .drill
  | .muster => some .muster

/-- A session is open exactly outside NORMAL, of the mode's kind, and the tag channel sweeps and holds its routine queue
exactly then (R112 to R114, R175, R176). -/
structure State.InSession (s : State) : Prop where
  session : s.muster.session = s.mode.mode.session
  suspended : s.tag.suspended = decide (s.mode.mode ≠ .normal)
  sweep : s.tag.sweep.isSome = decide (s.mode.mode ≠ .normal)

/-- A column is EMPTY exactly while its target slot is ABSENT; it is STALE exactly while it is queued or in flight, once; the
engine is IDLE only while the queue is empty (R43, R49, R52). -/
structure State.Columns (s : State) : Prop where
  form : Table.wf .empty s.routes.cols = true
  present : ∀ t < Config.targets, s.routes.col t ≠ .empty ↔ s.store.present .target t = true
  indexed : ∀ t < Config.targets, (s.graph.target t).isSome = s.store.present .target t
  inRange : ∀ t, Config.targets ≤ t → s.routes.col t = .empty
  stale : ∀ t, s.routes.col t = .stale ↔ s.routes.isQueued t = true ∨ s.routes.inFlight t = true
  once : (s.routes.queue.map QueuedCol.column).Nodup
  apart : ∀ t, s.routes.inFlight t = true → s.routes.isQueued t = false
  idle : s.routes.engine = none → s.routes.queue = []

/-- The lists of the part hold nothing twice, and at most 8 tags refresh at once (R129, R163, R165, R170, R171, R175). -/
structure State.Orderly (s : State) : Prop where
  service : (s.cabinTable.service.map ServiceChange.cabin).Nodup
  sends : s.scr.sendQueue.Nodup
  silent : s.scr.silent.Nodup
  routine : s.tag.routine.Nodup
  sweepList : ∀ w, s.tag.sweep = some w → w.list.Nodup
  refreshing : s.tag.inRefresh.length ≤ 8
  sending : ∀ n v, s.tag.transfer = some (.send n v) → s.tag.inRefresh.length < 8

/-- The queue's order: joining order in NORMAL, and in DRILL and MUSTER station columns first, each class in joining order; joining
orders are distinct, and none passes the joining count (R49, R50). -/
structure State.QueueInOrder (s : State) : Prop where
  joined : ∀ q ∈ s.routes.queue, q.order ≤ s.routes.joinCount
  distinct : (s.routes.queue.map QueuedCol.order).Nodup
  count : s.routes.joinCount ≤ 65535
  normal : s.mode.mode = .normal → s.routes.queue.Pairwise fun p q => p.order < q.order
  session : s.mode.mode ≠ .normal → s.routes.queue.Pairwise fun p q =>
    (p.column < 16 ∧ 16 ≤ q.column) ∨ ((p.column < 16 ↔ q.column < 16) ∧ p.order < q.order)

/-- The chain of cell (t, x) leads to target t's node by hops that are traversable in the mode (R28, R44). -/
inductive State.Chain (s : State) (t : Nat) : Nat → Prop where
  | goal {x : Nat} (here : s.graph.targetNode t = some x) : s.Chain t x
  | hop {x y k : Nat} (next : (s.store.cell t x).next = some k) (inRange : k < Config.segments)
      (walk : s.store.traversable s.mode.mode k x y = true) (rest : s.Chain t y) : s.Chain t x

/-- No cell leads where its hops may not be walked: the index holds the segment records, an EMPTY column's cells are empty, and the
chain of every other present cell is whole (R23, R25, R43 to R48). -/
structure State.Routed (s : State) : Prop where
  indexed : ∀ k < Config.segments,
    s.graph.segment k = if s.store.present .segment k = true then some (s.store.segRec k).ref else none
  segments : ∀ k < Config.segments, s.store.present .segment k = true → (s.store.segRec k).endA < 192 ∧
    (s.store.segRec k).endB < 192 ∧ (s.store.segRec k).endA ≠ (s.store.segRec k).endB ∧ 1 ≤ (s.store.segRec k).length
  targets : ∀ t < Config.targets, ∀ x, s.graph.targetNode t = some x → x < Config.nodes
  empty : ∀ t < Config.targets, s.routes.col t = .empty → ∀ x < Config.nodes, s.store.cell t x = {}
  chains : ∀ t < Config.targets, ∀ x < Config.nodes, (s.store.cell t x).dist ≠ none → s.Chain t x

/-- Every panel that needs a send is queued for one: a waiting screen in the send queue (R162, R163), and the tag of a PRESENT
cabin that is dirty, IN SERVICE, not refreshing and without a send in flight in the routine queue (R170); a tag's content is
blank exactly while its cabin is ABSENT (R151, R155). -/
structure State.Joined (s : State) : Prop where
  screens : ∀ n < Config.screens, (s.scr.link n).silent = false → (s.scr.link n).paused = false →
    (s.scr.link n).acked ≠ some (s.composer.screen n).version → n ∈ s.scr.sendQueue
  tags : ∀ n < Config.cabins, s.store.present .cabin n = true → (s.tag.link n).dirty = true →
    (s.tag.link n).service = .inService → (s.tag.link n).refresh = none → (∀ v, s.tag.transfer ≠ some (.send n v)) →
    n ∈ s.tag.routine
  blank : ∀ n < Config.cabins, (s.composer.tag n).content = [] ↔ s.store.present .cabin n = false

/-! ### What the panels show where no word is in error (R149 to R155). -/

/-- A slot that is PRESENT with its DAMAGED flag clear. -/
def Store.sound (st : Store) (k : Kind) (i : Nat) : Bool := st.present k i && !st.isDamaged (.slot k i)

/-- A phrase of a bank: built in, or loaded (R149, R150). -/
def State.phraseShown (s : State) (bank p : Nat) : List Item :=
  if p < 16 then [.phrase p (.rom bank)]
  else if s.store.sound .phrase (bank * 256 + p) then
    [.phrase p (.stored (Table.get [] s.store.phrases (bank * 256 + p)))]
  else []

/-- A target's name (R152, R156). -/
def State.nameShown (s : State) (bank t : Nat) : List Item :=
  if s.store.sound .target t then s.phraseShown bank (Table.get ({} : TargetRec) s.store.targets t).phrase else []

/-- A node's deck, where it is known (R156). -/
def State.deckShown (s : State) (x : Nat) : Option Nat :=
  if s.store.sound .node x then some (Table.get ({} : NodeRec) s.store.nodes x).deck else none

/-- The items after the name, by the table of R152 and by R154. -/
def State.routeShown (s : State) (bank t x : Nat) : List Item :=
  let c : Cell := if s.store.isDamaged (.cell t x) then {} else s.store.cell t x
  let held : List Item := if s.routes.col t = .stale then [.held] else []
  let arrow : List Item :=
    match c.next.bind s.graph.segment with
    | none => []
    | some r => [.arrow (if r.endA = x then r.arrowA else r.arrowB)]
  match c.dist with
  | none => [.phrase (if s.mode.mode = .normal then 11 else 1) (.rom bank)]
  | some 0 => [.phrase 2 (.rom bank)] ++ held
  | some d =>
    if d ≤ 4425 then arrow ++ [.minutes ((d + 74) / 75), .phrase 4 (.rom bank)] ++ held
    else arrow ++ [.phrase 3 (.rom bank)] ++ held

/-- The line of an entry (R153, the last table). -/
def State.entryShown (s : State) (bank : Nat) (p : Nat × ScheduleRow) : List Item :=
  let r : EntryRec := s.store.entryRec p.1
  let start : Item := .time (p.2.start % 1440)
  [.text r.title, .number r.audience.code] ++
    match p.2.state, s.now with
    | .scheduled, _ => [start]
    | .soon, n => [.phrase 10 (.rom bank), .number (p.2.start - n.getD 0), .phrase 4 (.rom bank)]
    | .running, _ => [.phrase 5 (.rom bank)]
    | .cancelled, some _ => [.phrase 6 (.rom bank)]
    | .cancelled, none => [start, .phrase 6 (.rom bank)]
    | .ended, _ => []

/-- The states that qualify for a screen (R153, the first table). -/
def ScheduleRow.qualifiesAt (r : ScheduleRow) : Option Nat → Bool
  | some n => r.state = .running || r.state = .soon || r.state = .cancelled || (r.state = .scheduled && r.start ≤ n + 360)
  | none => r.state = .scheduled || r.state = .cancelled

/-- An entry passes a screen's filter (R153, R156). -/
def State.passes (s : State) (r : ScreenRec) (h : Nat) : Bool :=
  match r.filter with
  | .none => false
  | .all => true
  | .ownDeck =>
    match (s.graph.entry h).bind EntryRef.venue with
    | none => true
    | some v =>
      let deck := (s.graph.targetNode v).bind s.deckShown
      deck.isSome && deck = s.deckShown r.node

/-- The PRESENT, undamaged entries for which `p` holds, in listing order (R89). -/
def State.IsListing (s : State) (p : Nat → ScheduleRow → Prop) (list : List (Nat × ScheduleRow)) : Prop :=
  (∀ h r, (h, r) ∈ list ↔ s.prog.row h = some r ∧ s.store.sound .entry h = true ∧ p h r) ∧
    list.Pairwise fun p q => p.2.start < q.2.start ∨ (p.2.start = q.2.start ∧ p.1 < q.1)

/-- A screen's frame in NORMAL (R152, R153). -/
def State.NormalScreen (s : State) (r : ScreenRec) (f : Frame) : Prop :=
  let time : Frame :=
    match s.time.clock.value with
    | none => []
    | some v => [[.time v.minute]]
  let highlight (p : Nat × ScheduleRow) : Bool := (s.store.entryRec p.1).highlight
  ∃ list, s.IsListing (fun h row => s.passes r h = true ∧ row.qualifiesAt s.now = true) list ∧
    f = time ++ r.targets.map (fun t => s.nameShown r.bank t ++ s.routeShown r.bank t r.node) ++
      ((list.filter highlight ++ list.filter fun p => !highlight p).take r.lines).map (s.entryShown r.bank)

/-- A screen's frame in DRILL and MUSTER (R154). -/
def State.sessionScreen (s : State) (r : ScreenRec) : Frame :=
  let drill : Frame := if s.mode.mode = .drill then [[.phrase 7 (.rom r.bank)]] else []
  let beacon : Frame := if r.beacon then [[.beacon 4 4]] else []
  let crew : List Item := [.phrase 1 (.rom r.bank)]
  let lines : Frame :=
    match r.station.bind fun a => (s.muster.effectiveOf a).map (a, ·) with
    | none => [[.phrase 15 (.rom r.bank)], crew]
    | some (a, e) =>
      let own := [.phrase 0 (.rom r.bank), .letter a] ++ s.nameShown r.bank a
      if e.askCrew then [own, crew]
      else if e.station = a then [own, s.routeShown r.bank a r.node]
      else [own, [.phrase 8 (.rom r.bank), .letter e.station] ++ s.nameShown r.bank e.station,
        s.routeShown r.bank e.station r.node]
  drill ++ lines ++ beacon

/-- What screen n's frame is, where it is not damaged (R151, R152, R154). -/
def State.ScreenShows (s : State) (n : Nat) (f : Frame) : Prop :=
  if s.store.present .screen n = false then f = []
  else if s.mode.mode = .normal then s.NormalScreen (s.store.screenRec n) f
  else f = s.sessionScreen (s.store.screenRec n)

/-- Tag n's frame (R132, R155); its station's node is the index's (log 47). -/
def State.tagShown (s : State) (n : Nat) : Frame :=
  let r := s.store.cabinRec n
  let line (t : Option Text) : Frame := (t.map fun t => [.text t]).toList
  let phrase (p : Nat) : List Item := [.phrase p (.rom r.bank)]
  if s.store.present .cabin n = false then []
  else if s.store.isDamaged (.slot .cabin n) then
    [[.phrase 15 (.rom (((s.cabinTable.summary n).map Summary.bank).getD 0))]]
  else if s.mode.mode = .normal then
    [[.text r.label]] ++ line r.occupant ++ line (r.greeting.map Greeting.text) ++
      match r.service with
      | .none => []
      | .privacy => [phrase 12]
      | .makeUp => [phrase 13]
  else
    let deck : Frame := (((s.graph.stationNode r.station).bind s.deckShown).map fun d => phrase 9 ++ [.number d]).toList
    let station : Frame :=
      if s.muster.hasStation r.station then [phrase 0 ++ [.letter r.station]] ++ deck else [phrase 15]
    (if s.mode.mode = .drill then [phrase 7] else []) ++ [[.text r.label]] ++ station ++ [phrase 14]

/-- A composition of frame `f` makes of a content record `a` the record `b` (R158). -/
def PanelContent.Composed (f : Frame) (a b : PanelContent) : Prop :=
  if sameFrame f a.content = true then b = a else b = { content := f, version := (a.version + 1) % 65536 }

/-! ### The panels that a change concerns (R157). -/

/-- What the Composer is told concerns screen n: R157's table. Nodes and listed targets are the index's; the other fields are the
record's, of a PRESENT screen. -/
def State.ScreenOf (s : State) (n : Nat) (x : Told) : Prop :=
  let record (p : ScreenRec → Prop) : Prop := s.store.present .screen n = true ∧ p (s.store.screenRec n)
  let listed (t : Nat) : Prop := ∃ r, s.graph.screen n = some r ∧ t ∈ r.targets
  let standsAt (p : Nat → Prop) : Prop := ∃ r, s.graph.screen n = some r ∧ p r.node
  match x with
  | .screen m => n = m
  | .targetName t => listed t ∨ (t < 16 ∧ record fun r => r.station ≠ none)
  | .targetNode t => listed t ∨ record fun r => r.filter = .ownDeck
  | .column t => listed t ∨
      record fun r => ∃ a e, r.station = some a ∧ s.muster.effectiveOf a = some e ∧ e.station = t
  | .segment ends => standsAt fun m => m ∈ ends
  | .node m => (standsAt fun k => k = m) ∨ record fun r => r.filter = .ownDeck
  | .entry => record fun r => r.filter ≠ .none ∧ 0 < r.lines
  | .clock => True
  | .station _ => record fun r => r.station ≠ none
  | .effective a => record fun r => r.station = some a
  | .bank b => record fun r => r.bank = b
  | .cabin _ => False
  | .everyPanel => True

/-- What the Composer is told concerns tag c: R157's table, with the stations of the roster and the banks of the summaries. -/
def State.TagOf (s : State) (c : Nat) (x : Told) : Prop :=
  let names (p : Nat → Prop) : Prop := ∃ r, s.muster.rosterEntry c = some r ∧ p r.station
  match x with
  | .targetNode t => t < 16 ∧ names fun n => n = t
  | .node m => names fun n => n < 16 ∧ s.graph.stationNode n = some m
  | .station n => names fun k => k = n
  | .bank b => ∃ m, s.cabinTable.summary c = some m ∧ m.bank = b
  | .cabin n => c = n
  | .everyPanel => True
  | .screen _ | .targetName _ | .column _ | .segment _ | .entry | .clock | .effective _ => False

/-- The panels that this concerns hold what they show now: every such screen that is not damaged, and every such tag (R157). -/
def State.Shows (s : State) (x : Told) : Prop :=
  (∀ n < Config.screens, s.ScreenOf n x → s.store.isDamaged (.slot .screen n) = false →
    ∃ f, s.ScreenShows n f ∧ sameFrame f (s.composer.screen n).content = true) ∧
  (∀ c < Config.cabins, s.TagOf c x → sameFrame (s.tagShown c) (s.composer.tag c).content = true)

/-! ### What the reads, reactions and compositions of an event leave alone. -/

/-- No record, no presence and no revision changes; a damage finding sets flags and never clears one of a slot (R4 to R9). -/
structure Store.Kept (a b : Store) : Prop where
  dir : b.dir = a.dir
  nodes : b.nodes = a.nodes
  segments : b.segments = a.segments
  targets : b.targets = a.targets
  stations : b.stations = a.stations
  entrances : b.entrances = a.entrances
  entries : b.entries = a.entries
  cabins : b.cabins = a.cabins
  screens : b.screens = a.screens
  phrases : b.phrases = a.phrases
  sweep : b.sweep = a.sweep
  lastSweep : b.lastSweep = a.lastSweep
  damaged : ∀ k i, i < 65536 → a.isDamaged (.slot k i) = true → b.isDamaged (.slot k i) = true
  corrected : a.corrected ≤ b.corrected
  firstDamaged : ∀ p, a.firstDamaged = some p → b.firstDamaged = some p
  alert : a.alert = true → b.alert = true

/-- A column keeps its state, or one that is not EMPTY becomes STALE; a computation in flight goes on (R39, R47, R54). -/
structure Routes.Kept (a b : Routes) : Prop where
  col : ∀ t, b.col t = a.col t ∨ (a.col t ≠ .empty ∧ b.col t = .stale)
  engine : ∀ c, a.engine = some c → ∃ o, b.engine = some { c with overtaken := o }

/-- A station's counts and captured first arrival stay, and so does its state unless damage has made it UNSAFE (R111). -/
structure Muster.Kept (a b : Muster) : Prop where
  stationSettings : b.stationSettings = a.stationSettings
  entranceSettings : b.entranceSettings = a.entranceSettings
  beams : b.beams = a.beams
  decoders : b.decoders = a.decoders
  roster : b.roster = a.roster
  session : b.session = a.session
  roll : b.roll = a.roll
  live : ∀ n, b.live n = a.live n ∨ b.live n = { a.live n with state := .notSafe }

/-- A screen keeps its link record, unless damage has paused it; queues and due polls aside, the channel stays as it is
(R159, R163). -/
structure ScreenChannel.Kept (a b : ScreenChannel) : Prop where
  transfer : b.transfer = a.transfer
  reply : b.reply = a.reply
  kioskPtr : b.kioskPtr = a.kioskPtr
  lastFrame : b.lastFrame = a.lastFrame
  silent : b.silent = a.silent
  link : ∀ n, b.link n = a.link n ∨ b.link n = { a.link n with paused := true }

/-- A tag keeps its link record, unless it becomes dirty; routine queue and sweep list aside, the channel stays as it is
(R170, R175). -/
structure TagChannel.Kept (a b : TagChannel) : Prop where
  transfer : b.transfer = a.transfer
  doneDue : b.doneDue = a.doneDue
  suspended : b.suspended = a.suspended
  rotationPtr : b.rotationPtr = a.rotationPtr
  rotationDue : b.rotationDue = a.rotationDue
  lastFrame : b.lastFrame = a.lastFrame
  walk : b.sweep.map TagSweep.walk = a.sweep.map TagSweep.walk
  link : ∀ n, b.link n = a.link n ∨ b.link n = { a.link n with dirty := true }

/-- A pending notice stays pending, and the port is otherwise as it was (R184). -/
structure Port.Kept (a b : Port) : Prop where
  requestBuffer : b.requestBuffer = a.requestBuffer
  buffer : b.buffer = a.buffer
  enables : b.enables = a.enables
  master : b.master = a.master
  resetCause : b.resetCause = a.resetCause
  spiOut : b.spiOut = a.spiOut
  latched : ∀ i, a.latched.getLsbD i = true → b.latched.getLsbD i = true

/-- What reads, damage reactions, withdrawals and compositions leave alone. -/
structure State.Kept (a b : State) : Prop where
  store : a.store.Kept b.store
  graph : b.graph = a.graph
  routes : a.routes.Kept b.routes
  time : b.time = a.time
  prog : b.prog = a.prog
  muster : a.muster.Kept b.muster
  cabinTable : b.cabinTable = a.cabinTable
  mode : b.mode = a.mode
  scr : a.scr.Kept b.scr
  tag : a.tag.Kept b.tag
  port : a.port.Kept b.port
  freeCount : b.freeCount = a.freeCount
  pending : b.pending = a.pending

/-- What the end of an event leaves of the state `a` that its own changes have made. The compositions read no segment,
station or entrance slot (log 19), so no station changes and a computation in flight goes on; a damage finding raises the
STORE notice; and with no error in the RAM nothing changes but the composed contents and what they put on the two channels
(R4, R6, R157). -/
structure State.Settled (a b : State) : Prop where
  kept : a.Kept b
  muster : b.muster = a.muster
  engine : ∀ c, a.routes.engine = some c → b.routes.engine = some c
  port : b.port = a.port ∨ b.port = a.port.raise .store
  clean : a.store.ramErrors = [] → b.store = a.store ∧ b.routes = a.routes ∧ b.port = a.port

/-! ### Reads that find no damage (R4, R5). -/

/-- No word of the list holds a double-bit error. -/
def Store.readable (st : Store) (ws : List Nat) : Prop := ∀ w ∈ ws, Table.get .clean st.ramErrors w ≠ .double

/-- What reading readable words leaves: each single-bit word is counted, and its correction is to be written back (R5). -/
def Store.afterReading (st : Store) (ws : List Nat) : Store :=
  let singles := ws.filter fun w => Table.get .clean st.ramErrors w = .single
  { st with
    corrected := max st.corrected (min 65535 (st.corrected + singles.length))
    writeBacks := st.writeBacks ++ singles.map fun w => { word := w, rewritten := false } }

/-- An expected revision, where one is carried, is the slot's (R11). -/
def Store.agrees (st : Store) (k : Kind) (i : Nat) (rev : Option Nat) : Prop := ∀ r, rev = some r → r = st.rev k i

/-! ### Clock events. -/

/-- What a clock event makes of a schedule row: the capture of a set, then the evaluation (R77, R85). -/
def ScheduleRow.moved (bySet : Bool) (n : Nat) (r : ScheduleRow) : ScheduleRow :=
  (if bySet && r.capturePending then { r with cancelled := some n, since := some n, capturePending := false } else r).evaluate n

/-- What a clock event with now `n` leaves of a state `a` (R70, R77, R78, R85, R131): rows evaluated, and gone where their time
is over; their slots removed; greetings due expired, and the other cabins as they were; a pending cancellation minute captured by a
set; with no error in the RAM every screen composed, and the tags whose greetings went (R157); and the rest kept. -/
structure State.ClockMoved (bySet : Bool) (n : Nat) (a b : State) : Prop where
  rows : ∀ h, b.prog.row h = (a.prog.row h).bind fun r =>
    if (r.moved bySet n).isOver n a.prog.linger then none else some (r.moved bySet n)
  retired : ∀ h r, a.prog.row h = some r → (r.moved bySet n).isOver n a.prog.linger = true →
    b.store.present .entry h = false ∧ b.graph.entry h = none ∧ b.store.isDamaged (.slot .entry h) = false ∧
      ((bySet && r.capturePending) = false → b.store.rev .entry h = (a.store.rev .entry h + 1) % 256)
  untouched : ∀ h < 256, (∀ r, a.prog.row h = some r →
      (r.moved bySet n).isOver n a.prog.linger = false ∧ (bySet && r.capturePending) = false) →
    b.store.entry .entry h = a.store.entry .entry h ∧ b.graph.entry h = a.graph.entry h ∧ b.store.entryRec h = a.store.entryRec h
  captured : ∀ h r, a.prog.row h = some r → bySet = true → r.capturePending = true →
    (r.moved bySet n).isOver n a.prog.linger = false → a.store.isDamaged (.slot .entry h) = false →
    a.store.readable [slotWord .entry h 11] →
    b.store.rev .entry h = (a.store.rev .entry h + 1) % 256 ∧
      b.store.entryRec h = { a.store.entryRec h with cancelled := some n }
  expired : ∀ c, b.cabinTable.summary c =
    (a.cabinTable.summary c).map fun m => { m with expiry := m.expiry.filter fun x => decide (n < x) }
  greeting : ∀ c m x, a.cabinTable.summary c = some m → m.expiry = some x → x ≤ n →
    a.store.isDamaged (.slot .cabin c) = false → a.store.readable (cabinGreeting c) →
    b.store.rev .cabin c = (a.store.rev .cabin c + 1) % 256 ∧
      b.store.cabinRec c = { a.store.cabinRec c with greeting := none }
  undue : ∀ c < Config.cabins, (∀ m x, a.cabinTable.summary c = some m → m.expiry = some x → n < x) →
    b.store.entry .cabin c = a.store.entry .cabin c ∧ b.store.cabinRec c = a.store.cabinRec c ∧
      b.cabinTable.summary c = a.cabinTable.summary c
  rest : ({ a with
    store := { a.store with
      dir := b.store.dir, damage := b.store.damage, entries := b.store.entries, cabins := b.store.cabins }
    graph := { a.graph with refEntries := b.graph.refEntries }
    prog := { a.prog with schedule := b.prog.schedule }
    cabinTable := { a.cabinTable with summaries := b.cabinTable.summaries } }).Kept b
  slots : ∀ k i, i < 65536 → k ≠ .entry → k ≠ .cabin → b.store.entry k i = a.store.entry k i
  flags : ∀ k i, i < 65536 → (k = .entry → ∀ r, a.prog.row i = some r → (r.moved bySet n).isOver n a.prog.linger = false) →
    (a.store.isDamaged (.slot k i) = true → b.store.isDamaged (.slot k i) = true) ∧
    (a.store.ramErrors = [] → b.store.isDamaged (.slot k i) = a.store.isDamaged (.slot k i))
  screens : a.store.ramErrors = [] → b.Shows .clock
  tags : a.store.ramErrors = [] → ∀ c m x, a.cabinTable.summary c = some m → m.expiry = some x → x ≤ n →
    a.store.isDamaged (.slot .cabin c) = false → b.Shows (.cabin c)

/-! ### The Route Engine and the screen channel. -/

/-- The engine has left its computation: it has taken the first of the columns that then waited, or is IDLE, and the others wait on
(R52, R55). -/
def Routes.TookNext (b : Routes) (waiting : List Nat) : Prop :=
  b.engine = waiting.head?.map (fun c => { column := c, overtaken := false, read := [] }) ∧
  b.queue.map QueuedCol.column = waiting.tail

/-- The chain of cell (c, x) leads to target c's node by hops that `kept` holds of, over cells whose flags are clear and whose words
no double-bit error hides; the hops are those of the reference index (R44, R45). -/
inductive State.WholeChain (s : State) (kept : Nat → Nat → Nat → Prop) (c : Nat) : Nat → Prop
  | goal {x : Nat} (inRange : x < Config.nodes) (clear : s.store.isDamaged (.cell c x) = false)
      (read : s.store.readable [cellWord c x]) (here : s.graph.targetNode c = some x) : s.WholeChain kept c x
  | hop {x y k : Nat} {r : SegRef} (inRange : x < Config.nodes) (clear : s.store.isDamaged (.cell c x) = false)
      (read : s.store.readable [cellWord c x]) (next : (s.store.cell c x).next = some k) (seg : s.graph.segment k = some r)
      (leads : y = if r.endA = x then r.endB else r.endA) (whole : kept k x y) (rest : s.WholeChain kept c y) :
      s.WholeChain kept c x

/-- From s to t no cell of column c whose chain is whole is withdrawn (R45 to R47). -/
def State.Spares (s : State) (kept : Nat → Nat → Nat → Prop) (c : Nat) (t : State) : Prop :=
  ∀ x, s.WholeChain kept c x → t.store.cell c x = s.store.cell c x

/-- The number n counts the entries that `entry` gives of which `p` holds (R25). -/
def Counts {α : Type} (entry : Nat → Option α) (p : α → Bool) (n : Nat) : Prop :=
  ∀ keys : List Nat, keys.Nodup → (∀ k, entry k ≠ none → k ∈ keys) → n = (keys.filterMap entry).countP p

/-- What the Composer's word on screen n's presence makes of the screen channel, where its composed version goes from `old` to
`new`: n's pause ends, a screen that is waiting joins the send queue, a kiosk enters the rotation and any other leaves it, and
nothing else changes (R147, R148, R162, R163, R165, R166). -/
structure ScreenChannel.Told (a : ScreenChannel) (n : Nat) (p : ScreenPresence) (old new : Nat) (b : ScreenChannel) : Prop where
  frame : b = { a with links := b.links, sendQueue := b.sendQueue, kioskDue := b.kioskDue }
  link : b.link n = { a.link n with presence := p, paused := false }
  others : ∀ m, m ≠ n → b.link m = a.link m
  queue : b.sendQueue =
    if n ∉ a.sendQueue ∧ (a.link n).silent = false ∧ ((a.link n).acked ≠ some old ∨ (a.link n).acked ≠ some new)
    then a.sendQueue ++ [n] else a.sendQueue
  due : n ∈ b.kioskDue ↔ p = .kiosk ∧ (a.link n).silent = false ∧
    (n ∈ a.kioskDue ∨ (a.link n).presence ≠ .kiosk ∨ (a.link n).paused = true)
  dueOthers : ∀ m, m ≠ n → (m ∈ b.kioskDue ↔ m ∈ a.kioskDue)

/-! ### Station states. -/

/-- What becomes of station n's state where it takes `new`, the clock standing at `clock` (R107, R115, R116, R117): where that
is the state it has, nothing; otherwise the state, on a first entry to FULL the full time, the lamp line's pattern, and
redirection resolved for all stations. -/
structure Muster.StateTaken (n : Nat) (new : StationState) (clock : Option ShipTime) (a b : Muster) : Prop where
  same : (a.live n).state = new → b = a
  live : (a.live n).state ≠ new → b.live n = { a.live n with
    state := new
    fullTime := if new = .full ∧ (a.live n).fullTime = .notYet then .taken clock else (a.live n).fullTime }
  others : ∀ k, k ≠ n → b.live k = a.live k
  lamp : (a.live n).state ≠ new → ∀ l, (a.settings n).bind StationSettings.lamp = some l →
    b.lamp l = { a.lamp l with onCount := (lampPattern new).1, offCount := (lampPattern new).2, fresh := true }
  otherLamps : ∀ l, (a.settings n).bind StationSettings.lamp ≠ some l → b.lamp l = a.lamp l
  effective : (a.live n).state ≠ new → ∀ k < 16, b.effectiveOf k = b.resolved k
  frame : b = { a with stations := b.stations, effective := b.effective, lamps := b.lamps }

/-- What becomes of the lamp lines where the settings have changed: a line that the same station names as before, or none as
before, keeps its generator; any other takes the pattern of the station that names it now, steady off where none does, and keeps
its level until the next 16 Hz tick (R94, R95, R117). -/
def Muster.LampsPointed (a b : Muster) : Prop :=
  ∀ l < 16,
    let names (n : Nat) : Prop := (b.settings n).bind StationSettings.lamp = some l
    let becomes (owner : Option Nat) (pattern : Nat × Nat) : Prop := b.lamp l =
      if (a.lamp l).owner = owner then a.lamp l
      else { a.lamp l with owner, onCount := pattern.1, offCount := pattern.2, fresh := true }
    (∀ n < 16, names n → (∀ k < n, ¬names k) → becomes (some n) (lampPattern (b.live n).state)) ∧
    ((∀ n < 16, ¬names n) → becomes none (0, 0))

/-- What a crossing or an ambiguous result makes of a station's counts (R104, R115). -/
def StationLive.counted (clock : Option ShipTime) (l : StationLive) : Crossing → StationLive
  | .inward => { l with
      head := min 1999 (l.head + 1), firstArrival := if l.firstArrival = .notYet then .taken clock else l.firstArrival }
  | .outward => { l with
      head := l.head - 1, unmatched := if l.head = 0 then max l.unmatched (min 255 (l.unmatched + 1)) else l.unmatched }
  | .ambiguous => { l with ambiguous := max l.ambiguous (min 255 (l.ambiguous + 1)) }

/-- The two live states have the same counts and first arrival. -/
def StationLive.SameCounts (a b : StationLive) : Prop :=
  b.head = a.head ∧ b.unmatched = a.unmatched ∧ b.ambiguous = a.ambiguous ∧ b.firstArrival = a.firstArrival

/-- The station reached from n after some overflow links through PRESENT stations (R116). -/
def Muster.reached (m : Muster) (n : Nat) : Nat → Option Nat
  | 0 => some n
  | k + 1 => (m.reached n k).bind fun x => ((m.settings x).bind StationSettings.overflow).filter m.hasStation

/-! ### Damage found (R6). -/

/-- The panels concerned by what the owner of slot (k, i) tells the Composer of damage found there show it (R39, R40, R92, R107,
R132, R150, R157). -/
def State.ReactionShown (a : State) (k : Kind) (i : Nat) (b : State) : Prop :=
  match k with
  | .node => b.Shows (.node i)
  | .segment =>
    (∀ r, a.graph.segment i = some r → b.Shows (.segment [r.endA, r.endB])) ∧
    ∀ c < Config.targets, a.routes.col c = .valid ∨ (∃ x < Config.nodes, b.store.cell c x ≠ a.store.cell c x) →
      b.Shows (.column c)
  | .target => b.Shows (.targetName i)
  | .station => ∀ n < Config.stations, b.muster.effectiveOf n ≠ a.muster.effectiveOf n → b.Shows (.effective n)
  | .entry => b.Shows .entry
  | .cabin => b.Shows (.cabin i)
  | .phrase => b.Shows (.bank (i / 256))
  | .entrance | .screen => True

/-- What follows where a read of the event finds slot (k, i) of state `a` damaged, no other being found before it: the store's steps
(R6); no record changes; and the owner's reaction (R39, R40, R92, R111, R132, R150, R159). Of what the owner tells the Composer the
panels are shown where no word outside the slot holds a double-bit error (R157). -/
structure State.DamageTaken (k : Kind) (i : Nat) (a b : State) : Prop where
  kept : a.Kept b
  flag : b.store.isDamaged (.slot k i) = true
  firstDamaged : b.store.firstDamaged = some (a.store.firstDamaged.getD (.slot k i))
  alert : b.store.alert = true
  notice : b.isPending .store = true
  columns : k = .segment → ∀ c < Config.targets, a.routes.col c ≠ .empty → b.routes.col c = .stale
  overtaken : k = .segment → ∀ c, a.routes.engine = some c → b.routes.engine = some { c with overtaken := true }
  withdrawn : k = .segment → a.wf = true → ∀ c < Config.targets, a.routes.col c ≠ .empty → ∀ x < Config.nodes,
    (b.store.cell c x).dist ≠ none → a.graph.targetNode c ≠ some x → (b.store.cell c x).next ≠ some i
  spared : ∀ c < Config.targets, a.Spares (fun j _ _ => k = .segment → j ≠ i) c b
  engine : k ≠ .segment → ∀ c, a.routes.engine = some c → b.routes.engine = some c
  station : k = .station → a.wf = true → a.muster.hasStation i = true →
    Muster.StateTaken i .notSafe a.time.clock.value a.muster b.muster ∧
    ((a.muster.live i).state ≠ .notSafe → b.isPending .station = true)
  muster : k ≠ .station → b.muster = a.muster
  entrance : k = .entrance → b.isPending .entrance = true
  screen : k = .screen → b.scr.link i = { a.scr.link i with paused := true } ∧ i ∉ b.scr.sendQueue ∧
    i ∉ b.scr.kioskDue ∧ i ∉ b.scr.probeDue ∧ b.composer.screen i = a.composer.screen i
  fallback : k = .cabin → a.store.present .cabin i = true →
    sameFrame [[.phrase 15 (.rom (((a.cabinTable.summary i).map Summary.bank).getD 0))]] (b.composer.tag i).content = true
  panels : a.wf = true → (∀ w, Table.get .clean a.store.ramErrors w = .double → w ∈ (Place.slot k i).words) →
    a.ReactionShown k i b

/-! ### Refusals (R7, R8, R11, R12). -/

/-- A request is refused: its response is a status word with what it carries, and nothing else changes (R12, R181). -/
def State.Refused (s : State) (c : Instr) (code : Nat) (x : Status) (payload : List Byte) : Prop :=
  exec c s = .next (s.answer (byte code) x payload)

/-- A request on slot i is refused with RANGE outside the kind's range, and with REVISION, which carries the slot's revision, where
it expects another (R11; R12, steps 3 and 4). -/
def State.ChecksSlot (s : State) (c : Instr) (code : Nat) (k : Kind) (i : Nat) (rev : Option Nat) : Prop :=
  (kindHas k i = false → s.Refused c code .range []) ∧
  (kindHas k i = true → ¬s.store.agrees k i rev → s.Refused c code .revision (num1 (s.store.rev k i)))

/-- A change or removal is refused with ABSENT besides (R12, step 5). -/
def State.ChecksHeld (s : State) (c : Instr) (code : Nat) (k : Kind) (i : Nat) (rev : Option Nat) : Prop :=
  s.ChecksSlot c code k i rev ∧
  (kindHas k i = true → s.store.agrees k i rev → s.store.present k i = false → s.Refused c code .absent [])

/-- A partial change is refused with DAMAGED besides (R8; R12, step 6; its payload: log 46). -/
def State.ChecksSound (s : State) (c : Instr) (code : Nat) (k : Kind) (i : Nat) (rev : Option Nat) : Prop :=
  s.ChecksHeld c code k i rev ∧
  (kindHas k i = true → s.store.agrees k i rev → s.store.present k i = true → s.store.isDamaged (.slot k i) = true →
    s.Refused c code .damaged (Place.slot k i).bytes)

/-- A request finds slot i damaged in its own reads: it answers DAMAGED with the kind and index, the store and the slot's owner take
their steps, and it changes nothing else: no record, no presence and no revision (R6, R7, R8; of a partial change: log 46). -/
def State.FindsDamage (s : State) (c : Instr) (code : Nat) (k : Kind) (i : Nat) : Prop :=
  ∃ t, exec c s = .next t ∧ State.DamageTaken k i (s.answer (byte code) .damaged (Place.slot k i).bytes) t

/-- What a request that reads the whole of slot i answers where it has no content to give (R7, R36, R88, R97, R124, R148, R150). -/
def State.ReadsSlot (s : State) (c : Instr) (code : Nat) (k : Kind) (i : Nat) : Prop :=
  (s.store.present k i = false → s.Refused c code .absent (num1 (s.store.rev k i))) ∧
  (s.store.present k i = true → s.store.isDamaged (.slot k i) = true → s.Refused c code .damaged (Place.slot k i).bytes) ∧
  (s.store.present k i = true → s.store.isDamaged (.slot k i) = false → ¬s.store.readable (Place.slot k i).words →
    s.FindsDamage c code k i)

/-! ### Mode changes. -/

/-- What a mode change event to `new` does beyond the mode itself and the session: every column that is not EMPTY becomes STALE, a
computation in flight is overtaken (R48, R49, R54), a cell whose chain may still be walked is kept (R45, R48), the tag channel's sweep starts at cabin 0 with an empty list, or stops (R176),
a due reply becomes REFUSED-MUSTER in DRILL and MUSTER (R167), and, with no word in error, every panel shows what it shows in the
new mode (R142, R157). -/
structure State.ModeTaken (new : Mode) (a b : State) : Prop where
  columns : ∀ c < Config.targets, a.routes.col c ≠ .empty → b.routes.col c = .stale
  overtaken : ∀ c, a.routes.engine = some c → b.routes.engine = some { c with overtaken := true }
  spared : ∀ c < Config.targets, a.Spares (fun k x y => b.store.traversable new k x y = true) c b
  suspended : b.tag.suspended = decide (new ≠ .normal)
  sweep : b.tag.sweep = if new = .normal then none else some { walk := 0, list := [] }
  reply : b.scr.reply =
    if new = .normal then a.scr.reply else a.scr.reply.map fun r => { r with body := .refusedMuster }
  transfers : b.scr.transfer = a.scr.transfer ∧ b.tag.transfer = a.tag.transfer
  panels : a.store.ramErrors = [] → b.Shows .everyPanel

/-! ### Walks (R28, R42). -/

/-- A walk from one node to another by segments traversable in a mode, all nodes on it PRESENT, and its cost. -/
inductive Walk (st : Store) (m : Mode) : Nat → Nat → Nat → Prop where
  | done (x : Nat) : Walk st m x x 0
  | step {x y z c : Nat} (s : Nat) (inRange : s < Config.segments) (open_ : st.traversable m s x y = true)
      (here : st.present .node x = true) (there : st.present .node y = true) (rest : Walk st m y z c) :
      Walk st m x z (segmentCost (st.segRec s).length (st.segRec s).kind + c)

end Sys2Proof.Machine
end

