-- ==== Sys2Proof/Certificates/Slice0/Obligations.lean ====
section
/-! DEFINITION. The statements about the part. Where a statement gives the state that a command leaves as `u.Settled t` or
`u.Kept t`, `u` is the state that the command's own changes make, and `t` may differ from it only as Sys2Proof/Safety.lean
says: by what the reads and compositions of the same event find and show. -/

open Sys2Proof Sys2Proof.Machine

/-! ### The machine. -/

/-- Section 11.2 and log 34: a step takes the command at the front of the queue and runs it with the queue's rest.
The queue is the model's. -/
def Obligations.FrontCommandRuns : Prop :=
  ∀ (c : Instr) (rest : List Instr) (s : State), step { s with pending := c :: rest } = exec c { s with pending := rest }

/-- Sections 1 to 11, "State after reset": every slot ABSENT with revision 0, nothing damaged, no error counted, every index
entry absent, the lock clear, every column EMPTY with its cells empty, the engine IDLE, the divider at zero, the clock UNSET, the
linger 20, no station, entrance, session and roll, counts and captured times cleared, beams clear with hold counts 0, decoders
IDLE with timers 0, an empty roster, mode NORMAL with count 0 and cause RESET, the filter SETTLING without a candidate, every
content blank with version 0, the link records, lists, pointers and sweeps of both channels as R162 and R169 give them, the buffer
EMPTY, no notice latched or enabled, ATTN and STORE ALERT released. The reset cause of State.reset, POWER ON (log 31), STANDBY as
the state kept for a station that is ABSENT (log 27), and that no 16 Hz or 1 Hz tick waits (log 35) are the model's. -/
def Obligations.ResetLeavesTheStatedValues : Prop :=
  let s := State.reset
  (∀ k i, s.store.present k i = false ∧ s.store.rev k i = 0) ∧ (∀ p, s.store.isDamaged p = false) ∧
  s.store.corrected = 0 ∧ s.store.firstDamaged = none ∧ s.store.alert = false ∧ s.store.sweep = none ∧
  s.store.lastSweep = none ∧ (∀ t x, s.store.cell t x = {}) ∧
  (∀ n, s.graph.segment n = none ∧ s.graph.target n = none ∧ s.graph.stationNode n = none ∧ s.graph.screen n = none ∧
    s.graph.cabinNode n = none ∧ s.graph.entry n = none) ∧ s.graph.lock = false ∧
  (∀ t, s.routes.col t = .empty) ∧ s.routes.queue = [] ∧ s.routes.joinCount = 0 ∧ s.routes.engine = none ∧
  s.time.divider = 0 ∧ s.time.due16 = false ∧ s.time.due1 = false ∧
  s.time.clock = .unset ∧ s.prog.linger = 20 ∧ (∀ h, s.prog.row h = none) ∧
  s.muster.session = none ∧ s.muster.roll = none ∧ (∀ n, s.muster.hasStation n = false ∧ s.muster.effectiveOf n = none ∧
    s.muster.live n = { state := .standby, head := 0, unmatched := 0, ambiguous := 0, firstArrival := .notYet,
                        fullTime := .notYet }) ∧
  (∀ i, s.muster.beam i = { blocked := false, hold := 0 }) ∧ (∀ k, s.muster.entrance k = none ∧
    s.muster.decoder k = { state := .idle, stuckFirst := 0, stuckSecond := 0, clearing := 0 }) ∧
  (∀ c, s.muster.rosterEntry c = none) ∧ (∀ n, s.muster.expected n = 0 ∧ s.muster.assistance n = 0) ∧
  (∀ l, s.lampLine l = false) ∧ (∀ n, s.cabinTable.summary n = none) ∧ s.cabinTable.service = [] ∧
  s.mode = { mode := .normal, changeCount := 0, lastCause := .reset, filter := { state := .settling none, hold := 0 } } ∧
  (∀ n, s.composer.screen n = { content := [], version := 0 } ∧ s.composer.tag n = { content := [], version := 0 }) ∧
  (∀ n, s.scr.link n = { presence := .absent, silent := false, paused := false, acked := some 0, attempts := 0,
                         missedPolls := 0 }) ∧
  s.scr.sendQueue = [] ∧ s.scr.silent = [] ∧ s.scr.reply = none ∧ s.scr.kioskPtr = 0 ∧ s.scr.transfer = none ∧
  s.scr.probeDue = [] ∧ s.scr.kioskDue = [] ∧
  (∀ n, s.tag.link n = { service := .inService, shown := 0, dirty := false, missed := 0, refresh := none }) ∧
  s.tag.routine = [] ∧ s.tag.inRefresh = [] ∧ s.tag.suspended = false ∧ s.tag.sweep = none ∧ s.tag.rotationPtr = 0 ∧
  s.tag.transfer = none ∧ s.tag.doneDue = [] ∧ s.tag.rotationDue = false ∧
  s.port.buffer = .empty ∧ s.pendingFlags = 0#8 ∧ s.port.enables = 0#8 ∧ s.port.master = false ∧
  s.attn = false ∧ s.storeAlertLow = false ∧ s.port.resetCause = .powerOn

/-- The reset state meets the invariants of the next statements. -/
def Obligations.ResetMeetsTheInvariants : Prop :=
  State.reset.wf = true ∧ State.reset.InRange ∧ State.reset.InSession ∧ State.reset.Columns ∧ State.reset.Orderly ∧
  State.reset.QueueInOrder ∧ State.reset.Routed ∧ State.reset.Joined ∧
  (State.reset.mode.filter.state = .asserted → State.reset.mode.mode = .muster)

/-- Every table of the state keeps its canonical form: equal contents are equal lists, at every step. The form is the
model's own. -/
def Obligations.EveryStepKeepsTheCanonicalForm : Prop :=
  ∀ s t : State, s.wf = true → step s = .next t → t.wf = true

/-- R5, R10, R63, R87, R104, R134, R151: the divider stands at a whole number of 64 Hz periods, a 16 Hz tick falls only where it
stands at a whole number of 16 Hz periods and a 1 Hz tick where it stands at zero (that a tick is due until it is taken is the
model's, log 35); revisions stay in 0..255, the corrected count in 0..65,535, the linger in 0..60, head
counts in 0..1,999, the two tallies of a station in 0..255, the change count and the content versions in 0..65,535. -/
def Obligations.EveryStepKeepsTheRanges : Prop :=
  ∀ s t : State, s.wf = true → s.InRange → step s = .next t → t.InRange

/-- R112 to R114, R118, R137, R175 to R177: a session of the mode's kind is open exactly outside NORMAL, and the tag channel sweeps
and holds back its routine queue exactly then; and while the filtered alarm line is ASSERTED the mode is MUSTER. -/
def Obligations.EveryStepKeepsTheSessionOfTheMode : Prop :=
  (∀ s t : State, s.InSession → step s = .next t → t.InSession) ∧
  (∀ s t : State, (s.mode.filter.state = .asserted → s.mode.mode = .muster) → step s = .next t →
    t.mode.filter.state = .asserted → t.mode.mode = .muster)

/-- R25, R28, R34, R35, R43 to R52, R54 to R58, R62: a column is EMPTY exactly while its target is ABSENT, STALE exactly while it
is queued or in flight, and the engine is IDLE only while the queue is empty; the queue stands in the order of its mode; and
whatever changes the graph, the mode or a target's node, or finds damage, withdraws so much that every cell which holds a distance
leads to its target's node by hops that may be walked in the mode, while an EMPTY column's cells are empty. -/
def Obligations.EveryStepKeepsTheColumns : Prop :=
  (∀ s t : State, s.wf = true → s.Columns → step s = .next t → t.Columns) ∧
  (∀ s t : State, s.wf = true → s.Columns → s.QueueInOrder → step s = .next t → t.QueueInOrder) ∧
  (∀ s t : State, s.wf = true → s.Columns → s.Routed → step s = .next t → t.Routed)

/-- R129, R163, R165, R170, R171, R174, R175: the service-change list, the send queue, the silent list, the routine queue and the
sweep list hold no panel twice, at most 8 tags refresh at once, and a send is in flight only while one more could; a waiting screen
is in the send queue (R162, R163), and the tag of a PRESENT cabin that is dirty, IN SERVICE, not refreshing and without a send in
flight is in the routine queue (R170). -/
def Obligations.EveryStepKeepsTheListsOrderly : Prop :=
  (∀ s t : State, s.wf = true → s.Orderly → step s = .next t → t.Orderly) ∧
  (∀ s t : State, s.wf = true → s.InRange → s.Joined → step s = .next t → t.Joined)

/-- R134, R137 to R142, R188, R189: the mode changes only at the four mode requests, at RESTART, at a tick of the alarm filter
and at a reset; and a part in MUSTER leaves it only by END MUSTER with the filter RELEASED, or by a power-on or pin reset. -/
def Obligations.OnlyModeCommandsChangeTheMode : Prop :=
  ∀ (c : Instr) (s t : State), exec c s = .next t → t.mode.mode ≠ s.mode.mode →
    (c = .startDrill ∨ c = .endDrill ∨ c = .startMuster ∨ c = .endMuster ∨ c = .restart ∨ (∃ b a, c = .tick64Hz b a) ∨
      c = .takenAssertion ∨ c = .filterSettles ∨ c = .powerOnReset ∨ c = .pinReset) ∧
    (s.mode.mode = .muster →
      (c = .endMuster ∧ s.mode.filter.state = .released) ∨ c = .powerOnReset ∨ c = .pinReset)

/-- R37, R38: what sets the lock stays set but for a power-on or pin reset, and while it is set no node is removed and no node's deck
changes, no segment's ends, length, kind, direction or arrows, no station's or host target's node, and no entrance's settings. -/
def Obligations.TheLockedTopologyStaysFixed : Prop :=
  ∀ (c : Instr) (s t : State), exec c s = .next t → s.graph.lock = true → c ≠ .powerOnReset → c ≠ .pinReset →
    t.graph.lock = true ∧ (∀ n, (Table.get {} t.store.nodes n).deck = (Table.get {} s.store.nodes n).deck) ∧
    (∀ n < Config.nodes, t.store.present .node n = s.store.present .node n) ∧
    (∀ k, t.muster.entrance k = s.muster.entrance k) ∧
    (∀ k < Config.entrances, t.store.present .entrance k = s.store.present .entrance k ∧
      Table.get ({} : EntranceRec) t.store.entrances k = Table.get {} s.store.entrances k) ∧
    (∀ k, t.graph.segment k = s.graph.segment k) ∧ (∀ n, t.graph.stationNode n = s.graph.stationNode n) ∧
    (∀ n, 16 ≤ n → t.graph.targetNode n = s.graph.targetNode n)

/-- R7, R8, R11, R12, R26, R27, R38, R183: a request that is refused changes nothing but the response. FIND CABIN, which may have
read cabins before it answers ABSENT, is set apart; a refusal with DAMAGED may follow reads of the same request. The refusals are
given in R12's order: RANGE, REVISION with the slot's revision, ABSENT, DAMAGED with kind and index, and then the owner's: LOCKED by
R38's table, REFERENCE by R26 and, with the counts, by R27, FINAL and FULL. A request that reads a slot answers ABSENT with the
revision, and DAMAGED where the flag stands or its own read finds damage. A partial change reads the words that it names, each of
the five that there are; where its read finds damage, as where a GET's does, no record, presence or revision changes, the store
takes R6's steps and the slot's owner reacts (R39, R40, R92, R111, R132, R150, R159). What a REFERENCE refusal carries is in log
14's form; that DAMAGED carries kind and index where a partial change is refused is log 46's. -/
def Obligations.RefusedRequestsChangeNothing : Prop :=
  (∀ (c : Instr) (s t : State) (r : Response), exec c s = .next t → t.port.buffer = .working r →
    t.port.buffer ≠ s.port.buffer →
    (r.status ∈ [.range, .full, .reference, .revision, .mode, .locked, .final, .busy] ∨
      (r.status = .absent ∧ ∀ a, c ≠ .findCabin a)) →
    t = { s with port := { s.port with buffer := .working r, spiOut := .idle } }) ∧
  (∀ s : State,
    (s.mode.mode = .normal →
      (∀ a : PutNode, s.ChecksSlot (.putNode (.fields a)) 0x20 .node a.index a.rev) ∧
      (∀ a : PutSegment, s.ChecksSlot (.putSegment (.fields a)) 0x23 .segment a.index a.rev) ∧
      (∀ a : PutTarget, s.ChecksSlot (.putTarget (.fields a)) 0x27 .target a.index a.rev) ∧
      (∀ a : PutStation, s.ChecksSlot (.putStation (.fields a)) 0x50 .station a.index a.rev) ∧
      (∀ a : PutEntrance, s.ChecksSlot (.putEntrance (.fields a)) 0x54 .entrance a.index a.rev) ∧
      (∀ a : PutCabin, s.ChecksSlot (.putCabin (.fields a)) 0x60 .cabin a.index a.rev) ∧
      (∀ a : PutScreen, s.ChecksSlot (.putScreen (.fields a)) 0x78 .screen a.index a.rev) ∧
      (∀ a : SlotArg, s.ChecksHeld (.removeNode (.fields a)) 0x21 .node a.index a.rev ∧
        s.ChecksHeld (.removeSegment (.fields a)) 0x24 .segment a.index a.rev ∧
        s.ChecksHeld (.removeTarget (.fields a)) 0x28 .target a.index a.rev ∧
        s.ChecksHeld (.removeStation (.fields a)) 0x51 .station a.index a.rev ∧
        s.ChecksHeld (.removeEntrance (.fields a)) 0x55 .entrance a.index a.rev ∧
        s.ChecksHeld (.removeCabin (.fields a)) 0x63 .cabin a.index a.rev ∧
        s.ChecksHeld (.removeScreen (.fields a)) 0x79 .screen a.index a.rev)) ∧
    (s.mode.mode ≠ .muster →
      (∀ a : PutPhrase, a.phrase < 256 →
        s.ChecksSlot (.putPhrase (.fields a)) 0x7C .phrase (a.bank * 256 + a.phrase) a.rev) ∧
      (∀ a : SlotArg, s.ChecksHeld (.retireEntry (.fields a)) 0x43 .entry a.index a.rev ∧
        s.ChecksSound (.cancelEntry (.fields a)) 0x42 .entry a.index a.rev) ∧
      (∀ a : ChangeEntry, s.ChecksSound (.changeEntry (.fields a)) 0x41 .entry a.index a.rev) ∧
      (∀ a : SetService, s.ChecksSound (.setService (.fields a)) 0x62 .cabin a.index a.rev) ∧
      (∀ a : ChangeCabin, (a.rosterGroup = true → s.mode.mode = .normal) →
        s.ChecksSound (.changeCabin (.fields a)) 0x61 .cabin a.index a.rev)) ∧
    (∀ a : SetSegmentState, s.ChecksSound (.setSegmentState (.fields a)) 0x25 .segment a.index a.rev)) ∧
  (∀ (s : State) (i : Nat),
    let reads (c : Instr) (code : Nat) (k : Kind) : Prop :=
      (kindHas k i = false → s.Refused c code .range []) ∧ (kindHas k i = true → s.ReadsSlot c code k i)
    reads (.getNode (.fields i)) 0x22 .node ∧ reads (.getSegment (.fields i)) 0x26 .segment ∧
    reads (.getTarget (.fields i)) 0x29 .target ∧ reads (.getStation (.fields i)) 0x52 .station ∧
    reads (.getEntrance (.fields i)) 0x56 .entrance ∧ reads (.getEntry (.fields i)) 0x45 .entry ∧
    reads (.getScreen (.fields i)) 0x7A .screen ∧
    (∀ part, part = none ∨ part = some 1 → reads (.getCabin (.fields { index := i, part })) 0x64 .cabin) ∧
    (∀ b p, b < 4 → 16 ≤ p → p < 128 →
      s.ReadsSlot (.getPhrase (.fields { bank := b, phrase := p })) 0x7D .phrase (b * 256 + p))) ∧
  (∀ (s : State) (i : Nat) (rev : Option Nat),
    (i < 384 → s.store.agrees .segment i rev → s.store.present .segment i = true →
      s.store.isDamaged (.slot .segment i) = false → ¬s.store.readable [192 + i * 2 + 1] → ∀ v : Availability,
      s.FindsDamage (.setSegmentState (.fields { index := i, rev, availability := v.code })) 0x25 .segment i) ∧
    (i < 512 → s.store.agrees .cabin i rev → s.store.present .cabin i = true → s.store.isDamaged (.slot .cabin i) = false →
      s.mode.mode ≠ .muster → ¬s.store.readable [4136 + i * 28, 4136 + i * 28 + 1] → ∀ v : Service,
      s.FindsDamage (.setService (.fields { index := i, rev, service := v.code })) 0x62 .cabin i) ∧
    (i < 256 → s.store.agrees .entry i rev → s.store.present .entry i = true → s.store.isDamaged (.slot .entry i) = false →
      s.mode.mode ≠ .muster → ∀ row, s.prog.row i = some row →
      (row.state = .ended ∨ row.state = .cancelled →
        s.Refused (.cancelEntry (.fields { index := i, rev })) 0x42 .final []) ∧
      (row.state ≠ .ended → row.state ≠ .cancelled → ¬s.store.readable [1064 + i * 12 + 11] →
        s.FindsDamage (.cancelEntry (.fields { index := i, rev })) 0x42 .entry i))) ∧
  (∀ (s : State) (a : ChangeEntry) (old : ScheduleRow), s.mode.mode ≠ .muster → a.index < 256 →
    s.store.agrees .entry a.index a.rev → s.store.present .entry a.index = true →
    s.store.isDamaged (.slot .entry a.index) = false → a.valid = true →
    (∀ v, a.venue = some (some v) → s.store.present .target v = true ∧
      ∃ n, s.graph.target v = some { node := n, kind := .venue }) →
    s.prog.row a.index = some old → old.state ≠ .ended → old.state ≠ .cancelled →
    (a.timing = true → ∀ n, s.now = some n → n < a.start.getD old.start +
      (a.duration.map clampDuration).getD (old.finish - old.start) + s.prog.linger) →
    ¬s.store.readable (changeEntryWords a) → s.FindsDamage (.changeEntry (.fields a)) 0x41 .entry a.index) ∧
  (∀ (s : State) (a : ChangeCabin), s.mode.mode ≠ .muster → (a.rosterGroup = true → s.mode.mode = .normal) →
    a.index < 512 → s.store.agrees .cabin a.index a.rev → s.store.present .cabin a.index = true →
    s.store.isDamaged (.slot .cabin a.index) = false → a.valid = true →
    (∀ g n m, a.greeting = some g → s.now = some n → g.expiry = some m → n < m) →
    (∀ x, a.node = some x → s.store.present .node x = true) →
    let n := a.index
    ¬s.store.readable (
      (if a.namesHead then [4136 + n * 28, 4136 + n * 28 + 1] else []) ++
      (if a.occupant.isSome then (List.range 8).map fun j => 4136 + n * 28 + (2 + j) else []) ++
      (if a.greeting.isSome then (List.range 18).map fun j => 4136 + n * 28 + (10 + j) else [])) →
    s.FindsDamage (.changeCabin (.fields a)) 0x61 .cabin n) ∧
  (∀ (s : State) (i : Nat) (rev : Option Nat), s.mode.mode = .normal → s.graph.lock = true →
    let a : SlotArg := { index := i, rev }
    (i < 192 → s.store.agrees .node i rev →
      (∀ deck ≤ 23, s.Refused (.putNode (.fields { index := i, rev, deck })) 0x20 .locked []) ∧
      (s.store.present .node i = true → s.Refused (.removeNode (.fields a)) 0x21 .locked [])) ∧
    (i < 384 → s.store.agrees .segment i rev →
      (∀ (b : PutSegment) (r : SegRec), b.index = i → b.rev = rev → b.record = some r → s.graph.segment i ≠ some r.ref →
        s.Refused (.putSegment (.fields b)) 0x23 .locked []) ∧
      (s.store.present .segment i = true → s.Refused (.removeSegment (.fields a)) 0x24 .locked [])) ∧
    (16 ≤ i → i < 40 → s.store.agrees .target i rev →
      (∀ (b : PutTarget) (r : TargetRec), b.index = i → b.rev = rev → b.record = some r →
        s.Refused (.putTarget (.fields b)) 0x27 .locked []) ∧
      (s.store.present .target i = true → s.Refused (.removeTarget (.fields a)) 0x28 .locked [])) ∧
    (i < 16 → s.store.agrees .station i rev →
      (∀ (b : PutStation) (r : StationRec), b.index = i → b.rev = rev → b.record = some r →
        s.graph.stationNode i ≠ some b.node → s.Refused (.putStation (.fields b)) 0x50 .locked []) ∧
      (s.store.present .station i = true → s.Refused (.removeStation (.fields a)) 0x51 .locked [])) ∧
    (i < 32 → s.store.agrees .entrance i rev →
      (∀ (b : PutEntrance) (r : EntranceRec), b.index = i → b.rev = rev → b.record = some r →
        s.Refused (.putEntrance (.fields b)) 0x54 .locked []) ∧
      (s.store.present .entrance i = true → s.Refused (.removeEntrance (.fields a)) 0x55 .locked []))) ∧
  (∀ (s : State) (i : Nat) (rev : Option Nat), s.mode.mode = .normal →
    let a : SlotArg := { index := i, rev }
    let absent (x : Nat) : Prop := s.store.present .node x = false
    (i < 192 → s.store.agrees .node i rev → s.store.present .node i = true → s.graph.lock = false →
      let c := s.graph.nodeRefs i
      0 < c.total → s.Refused (.removeNode (.fields a)) 0x21 .reference
        (num2 c.segmentEnds ++ num1 c.targets ++ num1 c.stations ++ num1 c.screens ++ num2 c.cabins)) ∧
    (16 ≤ i → i < 40 → s.store.agrees .target i rev → s.store.present .target i = true → s.graph.lock = false →
      0 < s.graph.screenListings i ∨ 0 < s.graph.venueUses i → s.Refused (.removeTarget (.fields a)) 0x28 .reference
        (num1 (s.graph.screenListings i) ++ num2 (s.graph.venueUses i))) ∧
    (i < 16 → s.store.agrees .station i rev → s.store.present .station i = true → s.graph.lock = false →
      0 < s.graph.screenListings i →
      s.Refused (.removeStation (.fields a)) 0x51 .reference (num1 (s.graph.screenListings i))) ∧
    (∀ (b : PutSegment) (r : SegRec), b.index < 384 → s.store.agrees .segment b.index b.rev → b.record = some r →
      s.graph.lock = false → absent b.endA ∨ absent b.endB → s.Refused (.putSegment (.fields b)) 0x23 .reference []) ∧
    (∀ (b : PutTarget) (r : TargetRec), 16 ≤ b.index → b.index < 40 → s.store.agrees .target b.index b.rev →
      b.record = some r → s.graph.lock = false → absent b.node ∨ (b.kind = 1 ∧ 0 < s.graph.venueUses b.index) →
      s.Refused (.putTarget (.fields b)) 0x27 .reference []) ∧
    (∀ (b : PutStation) (r : StationRec), b.index < 16 → s.store.agrees .station b.index b.rev → b.record = some r →
      s.graph.lock = false →
      absent b.node ∨ (∃ l k x, b.lamp = some l ∧ k < 16 ∧ k ≠ b.index ∧ s.muster.settings k = some x ∧ x.lamp = some l) →
      s.Refused (.putStation (.fields b)) 0x50 .reference []) ∧
    (∀ (b : PutCabin) (r : CabinRec), b.index < 512 → s.store.agrees .cabin b.index b.rev → b.record = some r →
      (∀ n m, s.now = some n → b.greeting.expiry = some m → n < m) → absent b.node →
      s.Refused (.putCabin (.fields b)) 0x60 .reference []) ∧
    (∀ (b : PutScreen) (r : ScreenRec), b.index < 48 → s.store.agrees .screen b.index b.rev → b.record = some r →
      absent b.node ∨ (∃ x ∈ b.targets, s.store.present .target x = false) →
      s.Refused (.putScreen (.fields b)) 0x78 .reference [])) ∧
  (∀ (s : State) (a : AddEntry) (r : EntryRec), s.mode.mode ≠ .muster → a.rev = none → a.record = some r →
    (∀ v, a.venue = some v →
      (s.store.present .target v = false → s.Refused (.addEntry (.fields a)) 0x40 .reference []) ∧
      (s.store.present .target v = true → (s.graph.target v).map TargetRef.kind ≠ some .venue →
        s.Refused (.addEntry (.fields a)) 0x40 .range [])) ∧
    (a.venue = none → (∀ h < 256, s.store.present .entry h = true) → s.Refused (.addEntry (.fields a)) 0x40 .full []))

/-- R143: outside the modes of its group a request is refused with MODE, whatever its fields, and nothing else changes. That MODE
comes before RANGE where the payload does not decode, and to which group a CHANGE CABIN of that kind belongs, is the model's
reading (log 13). -/
def Obligations.RequestsOutsideTheirModeAreRefused : Prop :=
  ∀ s : State,
    let refused (c : Instr) (code : Nat) : Prop := exec c s = .next (s.answer (byte code) .mode [])
    (s.mode.mode ≠ .normal →
      (∀ a, refused (.putNode a) 0x20) ∧ (∀ a, refused (.removeNode a) 0x21) ∧ (∀ a, refused (.putSegment a) 0x23) ∧
      (∀ a, refused (.removeSegment a) 0x24) ∧ (∀ a, refused (.putTarget a) 0x27) ∧ (∀ a, refused (.removeTarget a) 0x28) ∧
      refused .lockTopology 0x2B ∧ (∀ a, refused (.putStation a) 0x50) ∧ (∀ a, refused (.removeStation a) 0x51) ∧
      (∀ a, refused (.putEntrance a) 0x54) ∧ (∀ a, refused (.removeEntrance a) 0x55) ∧ (∀ a, refused (.putCabin a) 0x60) ∧
      (∀ a : ChangeCabin, a.rosterGroup = true → refused (.changeCabin (.fields a)) 0x61) ∧
      refused (.changeCabin (.malformed true)) 0x61 ∧
      (∀ a, refused (.removeCabin a) 0x63) ∧ (∀ a, refused (.putScreen a) 0x78) ∧ (∀ a, refused (.removeScreen a) 0x79)) ∧
    (s.mode.mode = .muster →
      (∀ a, refused (.shiftClock a) 0x39) ∧ (∀ a, refused (.addEntry a) 0x40) ∧ (∀ a, refused (.changeEntry a) 0x41) ∧
      (∀ a, refused (.cancelEntry a) 0x42) ∧ (∀ a, refused (.retireEntry a) 0x43) ∧ (∀ a, refused (.setLinger a) 0x44) ∧
      (∀ a, refused (.changeCabin a) 0x61) ∧ (∀ a, refused (.setService a) 0x62) ∧
      (∀ a, refused (.putPhrase a) 0x7C) ∧ refused .restart 0x94) ∧
    (s.mode.mode = .normal → (∀ a, refused (.secure a) 0x58) ∧ (∀ a, refused (.setHeadCount a) 0x5B))

/-- R188: a power-on reset and a pin reset leave the same state but for the reset cause. What waits in the queue and the count
of free values are the model's own (logs 12, 31). -/
def Obligations.HardResetsLeaveTheResetState : Prop :=
  ∀ s : State,
    exec .powerOnReset s = .next { State.reset with pending := s.pending, freeCount := s.freeCount } ∧
    exec .pinReset s = .next { State.reset with
      pending := s.pending, freeCount := s.freeCount, port := { State.reset.port with resetCause := .resetPin } }

/-- R62, R118, R133, R145, R177, R189: an accepted RESTART leaves NORMAL, the records, the index and the clock, ends the
session and the sweep, empties the service-change list, the decoders and both channels, and answers OK with the mode. Every screen
link is IN SERVICE with its acknowledged version absent, the screens that are not paused are queued in address order, and every
kiosk of them is due a poll; every tag link is IN SERVICE with its shown version, and the PRESENT cabins are dirty and queued in index
order; the columns that are not EMPTY are STALE and queued in order with joining orders from 1 on, the engine has taken the first,
and a chain that may be walked in NORMAL is kept. The Muster Unit keeps its settings, the roster, the roll, the taken levels and each
station's counts and captured times; every station that was not UNSAFE is STANDBY, redirection is resolved, and each named lamp line
takes its station's pattern. The latched notices are kept, SERVICE is clear, and with no error in the RAM MODE joins them from DRILL and
STATION where a station changed; and every panel shows what it shows in NORMAL. What damage the recomposition finds may pause
screens, queue columns and set STORE besides.
The byte forms that section 12 leaves open are the model's choice (log 15), and so is where a tag's DECK line takes the station's node
from (log 47). -/
def Obligations.RestartKeepsTheRecords : Prop :=
  ∀ s : State, s.wf = true → s.mode.mode ≠ .muster →
    ∃ t, exec .restart s = .next t ∧ t.mode.mode = .normal ∧ t.port.resetCause = .restart ∧
      t.port.buffer = .working { status := .ok, code := 0x94#8, payload := [0#8] } ∧
      t.port.enables = s.port.enables ∧ t.port.master = s.port.master ∧
      (s.mode.mode = .normal → t.mode = s.mode) ∧
      (s.mode.mode = .drill → t.isPending .mode = true ∧ t.mode = { s.mode with
        mode := .normal, changeCount := (s.mode.changeCount + 1) % 65536, lastCause := .restart }) ∧
      Store.Kept { s.store with sweep := none } t.store ∧ t.graph = s.graph ∧ t.time = s.time ∧ t.prog = s.prog ∧
      t.cabinTable = { s.cabinTable with service := [] } ∧ t.muster.session = none ∧ t.muster.roll = s.muster.roll ∧
      (∀ k, t.muster.decoder k = {}) ∧ (∀ i, t.muster.beam i = { s.muster.beam i with hold := 0 }) ∧
      t.muster.stationSettings = s.muster.stationSettings ∧ t.muster.entranceSettings = s.muster.entranceSettings ∧
      t.muster.roster = s.muster.roster ∧ t.pending = s.pending ∧ t.freeCount = s.freeCount ∧
      (let returns (n : Nat) : Prop := n < 16 ∧ s.muster.hasStation n = true ∧ (s.muster.live n).state ≠ .notSafe
       (∀ n, returns n → t.muster.live n = { s.muster.live n with state := .standby }) ∧
       (∀ n, ¬returns n → t.muster.live n = s.muster.live n) ∧
       (∀ n < 16, t.muster.effectiveOf n = t.muster.resolved n) ∧
       (∀ l < 16, ∀ n, (s.muster.lamp l).owner = some n →
         let pattern := lampPattern (t.muster.live n).state
         t.muster.lamp l = { s.muster.lamp l with onCount := pattern.1, offCount := pattern.2, fresh := true }) ∧
       t.port = { s.port with latched := t.port.latched, resetCause := t.port.resetCause, buffer := t.port.buffer
                              spiOut := .idle } ∧
       t.isPending .service = false ∧
       (∀ m : Notice, m ≠ .service → s.isPending m = true → t.isPending m = true) ∧
       ((∃ n, returns n ∧ (s.muster.live n).state ≠ .standby) → t.isPending .station = true) ∧
       (s.store.ramErrors = [] → ∀ m : Notice, t.isPending m = true → s.isPending m = true ∨
         (m = .mode ∧ s.mode.mode = .drill) ∨ (m = .station ∧ ∃ n, returns n ∧ (s.muster.live n).state ≠ .standby))) ∧
      (∀ c < Config.targets, s.routes.col c ≠ .empty → t.routes.col c = .stale) ∧
      (∀ c < Config.targets, s.Spares (fun k x y => s.mode.mode = .normal ∨ t.store.traversable .normal k x y = true) c t) ∧
      (∀ n < 48, ∃ paused, t.scr.link n = { presence := (s.scr.link n).presence, silent := false, paused, acked := none
                                            attempts := 0, missedPolls := 0 } ∧
        ((s.scr.link n).paused = true ∨ s.store.ramErrors = [] → paused = (s.scr.link n).paused)) ∧
      t.scr = { s.scr with
        links := t.scr.links, sendQueue := t.scr.sendQueue, kioskDue := t.scr.kioskDue
        transfer := none, reply := none, silent := [], probeDue := [] } ∧
      (∀ n < 512, t.tag.link n = { service := .inService, shown := (s.tag.link n).shown, missed := 0, refresh := none
                                   dirty := (t.tag.link n).dirty } ∧
        (s.store.present .cabin n = true → (t.tag.link n).dirty = true)) ∧
      t.tag = { s.tag with
        links := t.tag.links, routine := t.tag.routine, transfer := none, doneDue := [], rotationDue := false
        suspended := false, sweep := none } ∧
      (s.Joined → t.tag.routine = (List.range 512).filter fun n => s.store.present .cabin n) ∧
      (s.store.ramErrors = [] →
        t.scr.sendQueue = (List.range 48).filter (fun n => !(s.scr.link n).paused) ∧
        t.scr.kioskDue =
          (List.range 48).filter (fun n => decide ((s.scr.link n).presence = .kiosk) && !(s.scr.link n).paused) ∧
        (let columns := (List.range 40).filter fun c => decide (s.routes.col c ≠ .empty)
         t.routes.TookNext columns ∧ t.routes.joinCount = columns.length ∧
         t.routes.queue.map QueuedCol.order = (List.range (columns.length - 1)).map fun i => i + 2) ∧
        t.Shows .everyPanel)

/-! ### The command port and the notice unit. -/

/-- R179, R181, R182, R191, R195, logs 1 and 2: on an empty queue the response being worked becomes READY, and nothing else happens. A fetch
shifts out the response that the buffer holds READY, and otherwise a NOT READY frame, from the byte after the FETCH code on; it
discards nothing and leaves the buffer's state. A response frame is the status word, with the discard flag in bit 7, the echoed code,
the payload's length, the payload, and the exclusive-or of all of these (R191, R195). A fetch after the work finds the response READY. A select without a byte changes
nothing; one that begins with the FETCH code is a fetch; any other shifts out 0xFF (log 26), and during the work it is a request
to discard. -/
def Obligations.ResponsesBecomeReadyAndAreFetched : Prop :=
  ∀ s : State,
    (s.pending = [] →
      (∀ r, s.port.buffer = .working r → step s = .next { s with port := { s.port with buffer := .ready r } }) ∧
      ((∀ r, s.port.buffer ≠ .working r) → step s = .next s)) ∧
    (∀ m r, s.port.buffer = .ready r → exec (.fetch m) s = .next { s with port := { s.port with spiOut := .frame r.frame } }) ∧
    (∀ m, s.port.buffer = .empty →
      exec (.fetch m) s = .next { s with port := { s.port with spiOut := .frame [0x05#8, 0xF0#8, 0x00#8, 0xF5#8] } }) ∧
    (∀ r, s.port.buffer = .working r →
      exec (.fetch .duringWork) s =
        .next { s with port := { s.port with spiOut := .frame [0x05#8, 0xF0#8, 0x00#8, 0xF5#8] } } ∧
      exec (.fetch .afterWork) s = .next { s with port := { s.port with buffer := .ready r, spiOut := .frame r.frame } }) ∧
    (∀ i, SpiOut.byteAt i .idle = some 0xFF#8) ∧ (∀ frame i, SpiOut.byteAt (i + 1) (.frame frame) = frame[i]?) ∧
    (∀ (r : Response) (k : Nat),
      [Status.ok, .adjusted, .check, .length, .unknown, .notReady, .range, .absent, .full, .reference, .revision, .mode,
        .locked, .damaged, .final, .busy][k]? = some r.status →
      let word : Byte := if r.discard then BitVec.ofNat 8 (128 + k) else BitVec.ofNat 8 k
      let body : List Byte := [word, r.code, BitVec.ofNat 8 r.payload.length] ++ r.payload
      r.frame = body ++ [body.foldl (fun x y => x ^^^ y) 0#8]) ∧
    (∀ m, s.hostSelect m [] = s) ∧
    (∀ m rest, s.hostSelect m (0xF0#8 :: rest) = { s with
      port := { s.port with requestBuffer := { bytes := (0xF0#8 :: rest).take 203, count := rest.length + 1 } }
      pending := s.pending ++ [.fetch m] }) ∧
    (∀ (b : Byte) rest, b ≠ 0xF0#8 →
      (∀ m, (s.hostSelect m (b :: rest)).port =
        { s.port with requestBuffer := { bytes := (b :: rest).take 203, count := rest.length + 1 }, spiOut := .idle }) ∧
      (s.hostSelect .duringWork (b :: rest)).pending = s.pending ++ [.discardedRequest])

/-- R179, R180, R192: the port's checks in their order, each frame that one of them stops answered with its first byte as the
echoed code; a select during the work sets the discard flag of the response being worked (R181).
What the request buffer keeps is log 26's, a discard with nothing being worked log 3's, which values count for the shortest and the
longest payload log 50's. -/
def Obligations.StoppedAndDiscardedFrames : Prop :=
  ∀ s : State,
    (∀ (b : Byte) (rest : List Byte), b ≠ 0xF0#8 →
      let bytes := b :: rest
      let stored := bytes.take 203
      let answered (x : Status) : Prop :=
        exec (.stoppedFrame bytes) s =
          .next ({ s with port := { s.port with requestBuffer := { bytes := stored, count := bytes.length } } }.answer b x [])
      (rest = [] → answered .length) ∧
      (∀ (len : Byte) (more : List Byte), rest = len :: more →
        (bytes.length < 3 ∨ 200 < len.toNat ∨ bytes.length ≠ len.toNat + 3 → answered .length) ∧
        (bytes.length = len.toNat + 3 → len.toNat ≤ 200 →
          (bytes.getLast? ≠ some (xorAll bytes.dropLast) → answered .check) ∧
          (bytes.getLast? = some (xorAll bytes.dropLast) →
            ((∀ r ∈ requestRows, r.code ≠ b.toNat) → answered .unknown) ∧
            (∀ r, requestRows.find? (fun r => r.code = b.toNat) = some r →
              len.toNat < r.shortest ∨ r.longest < len.toNat → answered .length))))) ∧
    (∀ r, s.port.buffer = .working r →
      exec .discardedRequest s =
        .next { s with port := { s.port with buffer := .working { r with discard := true }, spiOut := .idle } }) ∧
    ((∀ r, s.port.buffer ≠ .working r) → exec .discardedRequest s = .next s)

/-- R186: CLEAR NOTICES clears the latched flags it names and answers the flags as they stand after; SET NOTICE ENABLES
writes all eight enables, SET MASTER ENABLE the master enable, and each answers the enables, the master and the ATTN level;
neither changes a pending flag. A set carries one bit for each source (R193). The byte of the master enable and of the ATTN level,
1 while set and while asserted, is the model's choice (log 15). -/
def Obligations.NoticeRequestsAct : Prop :=
  ∀ (s : State) (m : BitVec 8),
    (let s' : State := { s with port := { s.port with latched := s.port.latched &&& ~~~m } }
     exec (.clearNotices (.fields m.toNat)) s = .next (s'.answer 0x91#8 .ok [s'.pendingFlags]) ∧
      (∀ n : Notice, n ≠ .service → s'.isPending n = (s.isPending n && !m.getLsbD n.bit)) ∧
      s'.isPending .service = !s.cabinTable.service.isEmpty) ∧
    (let s' : State := { s with port := { s.port with enables := m } }
     exec (.setNoticeEnables (.fields m.toNat)) s =
        .next (s'.answer 0x92#8 .ok ([m] ++ flag s.port.master ++ flag s'.attn)) ∧ s'.pendingFlags = s.pendingFlags) ∧
    (∀ b : Bool,
      let s' : State := { s with port := { s.port with master := b } }
      exec (.setMasterEnable (.fields (if b then 1 else 0))) s =
        .next (s'.answer 0x93#8 .ok ([s.port.enables] ++ flag b ++ flag s'.attn)) ∧ s'.pendingFlags = s.pendingFlags)

/-- R187: READ STATUS changes nothing but the response, and answers the ten items as they stand. The bytes of the master enable, the
ATTN level, the lock, the engine and the sweep are the model's choice (log 15). -/
def Obligations.ReadStatusAnswers : Prop :=
  ∀ s : State, exec .readStatus s = .next (s.answer 0x90#8 .ok
    ([s.pendingFlags] ++ [s.port.enables] ++ flag s.port.master ++ flag s.attn ++ num1 s.mode.mode.code ++
      num1 s.time.clock.code ++ flag s.graph.lock ++ flag s.routes.engine.isSome ++ flag s.store.sweep.isSome ++
      num1 s.port.resetCause.code))

/-- R184, R185: ATTN is asserted exactly while the master enable is set and a source is both enabled and pending, its pin low
exactly then; it is released after a power-on and a pin reset, and RESTART keeps every enable and the master enable; SERVICE is
pending exactly while the service-change list is not empty, every other source exactly while its flag is latched. -/
def Obligations.AttnFollowsEnabledPendingSources : Prop :=
  ∀ s : State,
    (s.attnHigh = false ↔ s.attn = true) ∧
    (∀ t, exec .powerOnReset s = .next t ∨ exec .pinReset s = .next t →
      t.attn = false ∧ t.port.enables = 0#8 ∧ t.port.master = false) ∧
    (∀ t, exec .restart s = .next t → t.port.enables = s.port.enables ∧ t.port.master = s.port.master) ∧
    (s.attn = true ↔ s.port.master = true ∧ ∃ n : Notice, s.port.enables.getLsbD n.bit = true ∧ s.isPending n = true) ∧
    (s.isPending .service = true ↔ s.cabinTable.service ≠ []) ∧
    (∀ n : Notice, n ≠ .service → (s.isPending n = true ↔ s.port.latched.getLsbD n.bit = true))

/-- R190: a text that the part sends reads back as it was, with what follows it left over. It is a count byte and its characters'
bytes; a character takes one byte where its code is 0x01..0x7F, two where it is 0 or 0x80..0x7FFF, and three otherwise, and no
bytes that read as it are fewer. -/
def Obligations.TextsReadBackAsWritten : Prop :=
  (∀ (t : Text) (rest : List Byte), t.length < 256 → Reader.text (textBytes t ++ rest) = some (t, rest)) ∧
  (∀ t : Text, textBytes t = byte t.length :: t.flatMap charBytes) ∧
  (∀ c : Char16, (charBytes c).length =
    if 1 ≤ c.toNat ∧ c.toNat ≤ 0x7F then 1 else if c.toNat ≤ 0x7FFF then 2 else 3) ∧
  (∀ (c : Char16) (bytes : List Byte), Reader.char bytes = some (c, []) → (charBytes c).length ≤ bytes.length)

/-! ### The record store. -/

/-- R4 to R7: what a read of words does. A place whose flag is set is not read; readable words are answered, each single-bit one
counted and left to be written back; at the first double-bit word the flag is set, an absent first damaged record becomes the
place, the alert is ASSERTED, and in the event of the read the STORE notice becomes pending. -/
def Obligations.ReadingWordsChecksThem : Prop :=
  (∀ (st : Store) (p : Place) (ws : List Nat), st.isDamaged p = true → st.read p ws = (st, .damaged)) ∧
  (∀ (st : Store) (p : Place) (ws : List Nat), st.isDamaged p = false → st.readable ws →
    st.read p ws = (st.afterReading ws, .content)) ∧
  (∀ (st : Store) (p : Place) (before after : List Nat) (w : Nat), st.isDamaged p = false → st.readable before →
    Table.get .clean st.ramErrors w = .double →
    let found := st.afterReading before
    st.read p (before ++ w :: after) =
      ({ found with
          damage := Table.set false st.damage p.name true, firstDamaged := some (st.firstDamaged.getD p), alert := true },
        .finding)) ∧
  (∀ (s : State) (p : Place) (ws : List Nat), (s.store.read p ws).2 = .finding →
    ((Ev.start s).read p ws).1.toState = { s with store := (s.store.read p ws).1 }.notice .store)

/-- R3, R9, R10: a whole-record write rewrites every word of the slot, a partial change those it names; a write makes the slot
PRESENT and raises its revision, wrapping from 255 to 0; a removal makes it ABSENT, raises its revision and writes no word;
a whole-record write and a removal clear the slot's flag. No other slot's presence, revision or flag, and no other word,
changes. A write of route cells gives them their contents, whole, clears their flags, and changes no other cell. A correction still to
be written back finds its word rewritten where a write has rewritten that word, and is otherwise left as it is (R5). -/
def Obligations.WritingSlotsRaisesRevisions : Prop :=
  let word (st : Store) (w : Nat) : WordError := Table.get .clean st.ramErrors w
  let marked (words : List Nat) (list : List WriteBack) : List WriteBack :=
    list.map fun b => if b.word ∈ words then { b with rewritten := true } else b
  (∀ (st : Store) (k : Kind) (i : Nat) (ws : List Nat), st.wf = true → i < 65536 →
    let rev := (st.rev k i + 1) % 256
    let other (k' : Kind) (j : Nat) : Prop := j < 65536 ∧ ¬(k' = k ∧ j = i)
    ((st.putSlot k i).entry k i = { present := true, rev } ∧ (st.putSlot k i).isDamaged (.slot k i) = false ∧
      (∀ w, word (st.putSlot k i) w = if w ∈ (Place.slot k i).words then .clean else word st w) ∧
      (st.putSlot k i).writeBacks = marked (Place.slot k i).words st.writeBacks ∧
      (∀ k' j, other k' j → (st.putSlot k i).entry k' j = st.entry k' j ∧
        (st.putSlot k i).isDamaged (.slot k' j) = st.isDamaged (.slot k' j))) ∧
    ((st.removeSlot k i).entry k i = { present := false, rev } ∧ (st.removeSlot k i).isDamaged (.slot k i) = false ∧
      (st.removeSlot k i).ramErrors = st.ramErrors ∧ (st.removeSlot k i).writeBacks = st.writeBacks ∧
      (∀ k' j, other k' j → (st.removeSlot k i).entry k' j = st.entry k' j ∧
        (st.removeSlot k i).isDamaged (.slot k' j) = st.isDamaged (.slot k' j))) ∧
    ((st.changeSlot k i ws).entry k i = { present := true, rev } ∧ (st.changeSlot k i ws).damage = st.damage ∧
      (∀ w, word (st.changeSlot k i ws) w = if w ∈ ws then .clean else word st w) ∧
      (st.changeSlot k i ws).writeBacks = marked ws st.writeBacks ∧
      (∀ k' j, other k' j → (st.changeSlot k i ws).entry k' j = st.entry k' j))) ∧
  (∀ (st : Store) (t : Nat) (xs : List Nat) (content : Nat → Cell), st.wf = true → t < 40 → (∀ x ∈ xs, x < 192) →
    let u := st.writeCells t xs content
    let words := xs.map fun x => 24392 + t * 192 + x
    (∀ x ∈ xs, u.cell t x = content x ∧ u.isDamaged (.cell t x) = false) ∧
    (∀ c x, x < 192 → ¬(c = t ∧ x ∈ xs) → u.cell c x = st.cell c x ∧ u.isDamaged (.cell c x) = st.isDamaged (.cell c x)) ∧
    (∀ w, word u w = if w ∈ words then .clean else word st w) ∧ u.writeBacks = marked words st.writeBacks ∧
    u = { st with cells := u.cells, damage := u.damage, ramErrors := u.ramErrors, writeBacks := u.writeBacks } ∧
    ∀ k i, i < 65536 → u.isDamaged (.slot k i) = st.isDamaged (.slot k i))

/-- R5: a correction that is pending is written back, so that its word reads clean, and any other correction pending of that
word finds it rewritten; one whose word has been rewritten since its read is dropped; where none is pending nothing
happens.
That a write-back names its word is log 29's, that nothing happens otherwise log 4's. -/
def Obligations.CorrectionsAreWrittenBack : Prop :=
  ∀ (s : State) (w : Nat), s.wf = true →
    ((∀ b ∈ s.store.writeBacks, b.word ≠ w) → exec (.correctionWriteBack w) s = .next s) ∧
    (∀ b, (s.store.writeBacks.find? fun b => b.word = w) = some b →
      ∃ t, exec (.correctionWriteBack w) s = .next t ∧
        t = { s with store := { s.store with ramErrors := t.store.ramErrors, writeBacks := t.store.writeBacks } } ∧
        (b.rewritten = true → t.store.ramErrors = s.store.ramErrors ∧ t.store.writeBacks = s.store.writeBacks.erase b) ∧
        (b.rewritten = false →
          (∀ v, Table.get .clean t.store.ramErrors v = if v = w then .clean else Table.get .clean s.store.ramErrors v) ∧
          ∀ c ∈ t.store.writeBacks, c.word = w → c.rewritten = true))

/-- R19 and R20: READ SLOT answers a slot's presence, revision and DAMAGED flag, a cell's DAMAGED flag, from the directory and the
damage map; LIST DAMAGE answers, from the damage map, up to 16 names of damaged slots and cells from the place named onward in
rising store order, the lowest there are, and whether more follow. Neither reads a word; a place outside its kind's range, phrase
numbers 0..15 among them, is refused with RANGE. The bytes of the presence, of the DAMAGED flag and of 'more follow' are log 15's. -/
def Obligations.DamageReadsAnswer : Prop :=
  (∀ s : State,
    (∀ (k : Kind) (i : Nat), kindHas k i = true →
      exec (.readSlot (.fields { kind := k.code, index := i })) s = .next (s.answer 0x10#8 .ok
        (num1 (presenceCode (s.store.present k i)) ++ num1 (s.store.rev k i) ++ flag (s.store.isDamaged (.slot k i))))) ∧
    (∀ t x, t < Config.targets → x < Config.nodes →
      exec (.readSlot (.fields { kind := 9, index := t * 256 + x })) s =
        .next (s.answer 0x10#8 .ok (flag (s.store.isDamaged (.cell t x))))) ∧
    (∀ (k : Kind) (i : Nat), kindHas k i = false →
      exec (.readSlot (.fields { kind := k.code, index := i })) s = .next (s.answer 0x10#8 .range [])) ∧
    (∀ i, Config.targets ≤ i / 256 ∨ Config.nodes ≤ i % 256 →
      exec (.readSlot (.fields { kind := 9, index := i })) s = .next (s.answer 0x10#8 .range [])) ∧
    (∀ b p, p < 16 → kindHas .phrase (phraseIndex b p) = false)) ∧
  (∀ (s : State) (a : RecordName) (p : Place), s.wf = true → placeOf a.kind a.index = some p →
    (p.valid = false → exec (.listDamage (.fields a)) s = .next (s.answer 0x11#8 .range [])) ∧
    (p.valid = true → ∃ names : List Nat,
      exec (.listDamage (.fields a)) s =
        .next (s.answer 0x11#8 .ok (listBytes ((names.take 16).map num3) ++ flag (decide (16 < names.length)))) ∧
      names.Pairwise (· < ·) ∧
      ∀ n, n ∈ names ↔ p.name ≤ n ∧ Table.get false s.store.damage n = true))

/-- R13, R15, R16: CLEAR STORE ALERT sets the count to 0, makes the first damaged record absent and the alert RELEASED, and
changes nothing else; READ STORE HEALTH answers the record and changes nothing; SWEEP STORE starts a sweep at the first word
of the nodes, or is refused with BUSY while one runs.
The byte forms that section 12 leaves open are the model's choice (log 15). -/
def Obligations.StoreUpkeepRequests : Prop :=
  ∀ s : State,
    exec .clearStoreAlert s =
      .next ({ s with store := { s.store with corrected := 0, firstDamaged := none, alert := false } }.answer 0x13#8 .ok []) ∧
    exec .readStoreHealth s = .next (s.answer 0x12#8 .ok
      (num2 s.store.corrected ++ optPlaceBytes s.store.firstDamaged ++ num1 (alertCode s.store.alert) ++
        flag s.store.sweep.isSome ++ optPlaceBytes (s.store.sweep.map Sweep.position) ++
        groupBytes (s.store.lastSweep.map fun l => optTimeBytes l.endTime ++ num2 l.corrections ++ num2 l.damaged))) ∧
    (s.store.sweep = none →
      let sw : Sweep := { position := .slot .node 0, passed := false, corrections := 0, damaged := 0 }
      exec .sweepStore s = .next ({ s with store := { s.store with sweep := some sw } }.answer 0x14#8 .ok [])) ∧
    (∀ sw, s.store.sweep = some sw → exec .sweepStore s = .next (s.answer 0x14#8 .busy []))

/-- R17, R18: a read of the sweep takes the first place, from the position on, that is a PRESENT slot or a cell with its flag
clear: its single-bit words are counted in the sweep's tally as in the store's, a double-bit word adds one record newly damaged,
and the position moves on to the next place in store order. A slot found damaged takes R6's steps and its owner's reaction (R39,
R40, R92, R111, R132, R150, R159); a cell found damaged is withdrawn, its flag clear again, and its column, if it is not EMPTY, STALE
(R47). The sweep ends with its tallies and the captured time in the last-sweep result; with no error in the RAM its end changes nothing else. What the end does of the
reads still due is the model's (log 18), as is where the position stands between reads (log 33). -/
def Obligations.SweepReadsAndEnds : Prop :=
  (∀ (s : State) (sw : Sweep), s.store.sweep = some sw → sw.passed = false →
    (∀ p, s.store.sweepNext 9608 sw.position = some p →
      s.store.sweepReads p = true ∧
      ∃ t sw', exec .sweepRead s = .next t ∧ t.store.sweep = some sw' ∧ t.store.dir = s.store.dir ∧ t.mode = s.mode ∧
        (p.next = none → sw'.passed = true) ∧ (∀ q, p.next = some q → sw'.passed = false ∧ sw'.position = q) ∧
        (s.store.readable p.words →
          t.store.damage = s.store.damage ∧ t.store.corrected = (s.store.afterReading p.words).corrected ∧
          sw'.damaged = sw.damaged ∧ sw'.corrections = max sw.corrections (min 65535 (sw.corrections +
            (p.words.filter fun w => Table.get .clean s.store.ramErrors w = .single).length))) ∧
        (¬s.store.readable p.words → sw'.damaged = sw.damaged + 1 ∧ t.store.alert = true ∧ t.isPending .store = true ∧
          (∀ k i, p = .slot k i → kindHas k i = true →
            State.DamageTaken k i { s with store := { s.store with sweep := some sw' } } t) ∧
          (∀ c x, p = .cell c x → c < 40 → x < 192 → s.wf = true →
            ({ s with store := { s.store with sweep := some sw' } }).Kept t ∧ t.store.cell c x = {} ∧
            t.store.isDamaged (.cell c x) = false ∧ (s.routes.col c ≠ .empty → t.routes.col c = .stale) ∧
            (∀ d < 40, s.Spares (fun _ _ _ => True) d t) ∧
            ((∀ w, Table.get .clean s.store.ramErrors w = .double → w ∈ p.words) → s.routes.col c ≠ .empty →
              t.Shows (.column c))))) ∧
    (∀ fuel q, s.store.sweepReads q = true → s.store.sweepNext (fuel + 1) q = some q) ∧
    (∀ fuel q, s.store.sweepReads q = false → s.store.sweepNext (fuel + 1) q = q.next.bind (s.store.sweepNext fuel)) ∧
    (∀ q, s.store.sweepReads q = true ↔
      s.store.isDamaged q = false ∧ ∀ k i, q = .slot k i → s.store.present k i = true) ∧
    (s.store.sweepNext 9608 sw.position = none →
      exec .sweepRead s = .next { s with store := { s.store with sweep := some { sw with passed := true } } })) ∧
  (∀ (s : State) (sw : Sweep), s.store.sweep = some sw →
    (∃ t l, exec .sweepEnds s = .next t ∧ t.store.sweep = none ∧ t.store.lastSweep = some l ∧
      l.endTime = s.time.clock.value) ∧
    (s.store.ramErrors = [] →
      let l : LastSweep := { endTime := s.time.clock.value, corrections := sw.corrections, damaged := sw.damaged }
      exec .sweepEnds s = .next { s with store := { s.store with sweep := none, lastSweep := some l } }))

/-! ### Operands. -/

/-- R22 to R24, R74, R80, R82, R94, R96, R119, R122, R146: the fields of each record, and the range of each. A PUT or an ADD ENTRY
makes a record exactly where every value lies in its range, and the record holds the values given, an enumeration's by its place
in the manual's list; a duration, a lead or a near-full percent outside its range is taken as the nearest bound. A CHANGE is in
range where every field it names is, it replaces the fields it names and no other, and its words are those that hold them (R2). A
request that makes no record, or that is out of range, is refused with RANGE where the checks before that one have passed (R12,
R24, R26, R79, R82, R121, R126, R150), and so is a greeting or an entry whose time is over, and a value that a read names outside
its range; a part byte other than 1 is log 16's. -/
def Obligations.RecordsHaveTheirRanges : Prop :=
  let arrows : List Arrow := [.ahead, .aheadRight, .right, .backRight, .back, .backLeft, .left, .aheadLeft, .upStairs, .downStairs]
  let audiences : List Audience := [.all, .adult, .family, .youth]
  let services : List Service := [.none, .privacy, .makeUp]
  let text (lo hi : Nat) (t : Text) : Prop := lo ≤ t.length ∧ t.length ≤ hi ∧ 0#16 ∉ t
  let greets (g : GreetingArg) : Prop := text 0 64 g.text ∧ (∀ m, g.expiry = some m → m ≤ 143999 ∧ g.text ≠ [])
  let greeting (g : GreetingArg) : Option Greeting := if g.text = [] then none else some { text := g.text, expiry := g.expiry }
  let occupant (t : Text) : Option Text := if t = [] then none else some t
  (∀ a : PutSegment, (a.record.isSome = true ↔ a.endA < 192 ∧ a.endB < 192 ∧ a.endA ≠ a.endB ∧ 1 ≤ a.length ∧
      a.length ≤ 120 ∧ a.kind < 5 ∧ a.direction < 3 ∧ a.availability < 4 ∧ a.arrowA < 10 ∧ a.arrowB < 10) ∧
    ∀ r, a.record = some r → r.endA = a.endA ∧ r.endB = a.endB ∧ r.length = a.length ∧
      [SegKind.corridor, .openDeck, .ramp, .stair, .lift][a.kind]? = some r.kind ∧
      [Direction.both, .aToB, .bToA][a.direction]? = some r.direction ∧
      [Availability.openAll, .closed, .musterOnly, .normalOnly][a.availability]? = some r.availability ∧
      arrows[a.arrowA]? = some r.arrowA ∧ arrows[a.arrowB]? = some r.arrowB ∧
      r.ref = { endA := r.endA, endB := r.endB, length := r.length, kind := r.kind, direction := r.direction
                arrowA := r.arrowA, arrowB := r.arrowB }) ∧
  (∀ a : PutTarget, (a.record.isSome = true ↔ a.node < 192 ∧ a.phrase < 128 ∧ a.kind < 2) ∧
    ∀ r, a.record = some r →
      r.node = a.node ∧ r.phrase = a.phrase ∧ [TargetKind.venue, .service][a.kind]? = some r.kind) ∧
  (∀ a : PutStation, (a.record.isSome = true ↔ a.node < 192 ∧ a.capacity ≤ 999 ∧ (∀ n, a.overflow = some n → n ≤ 15) ∧
      (∀ l, a.lamp = some l → l ≤ 15) ∧ a.phrase < 128) ∧
    ∀ r, a.record = some r → r = { node := a.node, capacity := a.capacity, nearFull := max 50 (min 99 a.nearFull)
                                   overflow := a.overflow, lamp := a.lamp, phrase := a.phrase }) ∧
  (∀ a : PutEntrance, (a.record.isSome = true ↔ (∀ n, a.station = some n → n ≤ 15) ∧
      (a.filter = 0 ∨ a.filter = 2 ∨ a.filter = 4 ∨ a.filter = 8) ∧ a.orientation < 2) ∧
    ∀ r, a.record = some r → r = { station := a.station, filter := a.filter, swapped := decide (a.orientation = 1) }) ∧
  (∀ a : AddEntry, (a.record.isSome = true ↔ text 1 40 a.title ∧
      (∀ v, a.venue = some v → 16 ≤ v ∧ v ≤ 39) ∧ a.start ≤ 143999 ∧ a.audience < 4 ∧ a.highlight < 2) ∧
    (a.adjusted = true ↔ a.duration < 5 ∨ 720 < a.duration ∨ 60 < a.lead) ∧
    ∀ r, a.record = some r → r.title = a.title ∧ r.venue = a.venue ∧ r.start = a.start ∧
      r.duration = max 5 (min 720 a.duration) ∧ r.lead = min 60 a.lead ∧ audiences[a.audience]? = some r.audience ∧
      r.highlight = decide (a.highlight = 1) ∧ r.cancelled = none) ∧
  (∀ a : ChangeEntry, (a.valid = true ↔ (∀ t, a.title = some t → text 1 40 t) ∧
      (∀ v, a.venue = some (some v) → 16 ≤ v ∧ v ≤ 39) ∧ (∀ m, a.start = some m → m ≤ 143999) ∧
      (∀ c, a.audience = some c → c < 4) ∧ (∀ c, a.highlight = some c → c < 2)) ∧
    (a.adjusted = true ↔ (∃ d, a.duration = some d ∧ (d < 5 ∨ 720 < d)) ∨ ∃ l, a.lead = some l ∧ 60 < l) ∧
    (a.timing = true ↔ a.start ≠ none ∨ a.duration ≠ none ∨ a.lead ≠ none) ∧
    changeEntryWords a = (if a.title = none then [] else (List.range 11).map fun j => 1064 + a.index * 12 + j) ++
      (if a.venue = none ∧ a.timing = false ∧ a.audience = none ∧ a.highlight = none then [] else [1064 + a.index * 12 + 11]) ∧
    ∀ r : EntryRec, a.valid = true →
      (a.apply r).title = a.title.getD r.title ∧ (a.apply r).venue = a.venue.getD r.venue ∧
      (a.apply r).start = a.start.getD r.start ∧
      (a.apply r).duration = (a.duration.map fun d => max 5 (min 720 d)).getD r.duration ∧
      (a.apply r).lead = (a.lead.map fun l => min 60 l).getD r.lead ∧
      (a.audience = none → (a.apply r).audience = r.audience) ∧
      (∀ c, a.audience = some c → audiences[c]? = some (a.apply r).audience) ∧
      (a.apply r).highlight = (a.highlight.map fun c => decide (c = 1)).getD r.highlight ∧
      (a.apply r).cancelled = r.cancelled) ∧
  (∀ a : PutCabin, (a.record.isSome = true ↔ text 1 6 a.label ∧ a.node < 192 ∧ a.station < 16 ∧ 1 ≤ a.berths ∧ a.berths ≤ 6 ∧
      a.assist < 2 ∧ a.bank < 4 ∧ a.service < 3 ∧ text 0 32 a.occupant ∧ greets a.greeting) ∧
    ∀ r, a.record = some r → r.label = a.label ∧ r.node = a.node ∧ r.station = a.station ∧ r.berths = a.berths ∧
      r.assist = decide (a.assist = 1) ∧ r.bank = a.bank ∧ services[a.service]? = some r.service ∧
      r.occupant = occupant a.occupant ∧ r.greeting = greeting a.greeting) ∧
  (∀ a : ChangeCabin, (a.valid = true ↔ (∀ x, a.node = some x → x < 192) ∧ (∀ n, a.station = some n → n < 16) ∧
      (∀ b, a.berths = some b → 1 ≤ b ∧ b ≤ 6) ∧ (∀ c, a.assist = some c → c < 2) ∧ (∀ b, a.bank = some b → b < 4) ∧
      (∀ c, a.service = some c → c < 3) ∧ (∀ t, a.occupant = some t → text 0 32 t) ∧ (∀ g, a.greeting = some g → greets g)) ∧
    (a.namesRoster = true ↔ a.station ≠ none ∨ a.berths ≠ none ∨ a.assist ≠ none) ∧
    (a.rosterGroup = true ↔ a.node ≠ none ∨ a.namesRoster = true) ∧
    (a.namesHead = true ↔ a.rosterGroup = true ∨ a.bank ≠ none ∨ a.service ≠ none) ∧
    ∀ r : CabinRec, a.valid = true →
      (a.apply r).label = r.label ∧ (a.apply r).node = a.node.getD r.node ∧ (a.apply r).station = a.station.getD r.station ∧
      (a.apply r).berths = a.berths.getD r.berths ∧
      (a.apply r).assist = (a.assist.map fun c => decide (c = 1)).getD r.assist ∧ (a.apply r).bank = a.bank.getD r.bank ∧
      (a.service = none → (a.apply r).service = r.service) ∧
      (∀ c, a.service = some c → services[c]? = some (a.apply r).service) ∧
      (a.apply r).occupant = (a.occupant.map occupant).getD r.occupant ∧
      (a.apply r).greeting = (a.greeting.map greeting).getD r.greeting) ∧
  (∀ a : PutScreen, (a.record.isSome = true ↔ a.node < 192 ∧ a.kind < 2 ∧ a.bank < 4 ∧ a.targets.length ≤ 6 ∧
      (∀ t ∈ a.targets, t < 40) ∧ a.targets.Nodup ∧ a.filter < 3 ∧ a.lines ≤ 4 ∧ (∀ n, a.station = some n → n ≤ 15) ∧
      a.beacon < 2) ∧
    ∀ r, a.record = some r → r.node = a.node ∧ [ScreenKind.wall, .kiosk][a.kind]? = some r.kind ∧ r.bank = a.bank ∧
      r.targets = a.targets ∧ [ProgFilter.ownDeck, .all, .none][a.filter]? = some r.filter ∧ r.lines = a.lines ∧
      r.station = a.station ∧ r.beacon = decide (a.beacon = 1)) ∧
  (∀ s : State,
    let refused (c : Instr) (code : Nat) : Prop := s.Refused c code .range []
    let named (k : Kind) (i : Nat) (rev : Option Nat) : Prop := kindHas k i = true ∧ s.store.agrees k i rev
    let sound (k : Kind) (i : Nat) (rev : Option Nat) : Prop :=
      named k i rev ∧ s.store.present k i = true ∧ s.store.isDamaged (.slot k i) = false
    let past (m : Option Nat) : Prop := ∃ n x, s.now = some n ∧ m = some x ∧ x ≤ n
    let expiry (g : Option GreetingArg) : Option Nat := g.bind GreetingArg.expiry
    let venue (v : Nat) : Prop := s.store.present .target v = true ∧ (s.graph.target v).map TargetRef.kind = some .venue
    (s.mode.mode = .normal →
      (∀ a : PutNode, named .node a.index a.rev → 23 < a.deck → refused (.putNode (.fields a)) 0x20) ∧
      (∀ a : PutSegment, named .segment a.index a.rev → a.record = none → refused (.putSegment (.fields a)) 0x23) ∧
      (∀ a : PutTarget, named .target a.index a.rev → a.index < 16 ∨ a.record = none → refused (.putTarget (.fields a)) 0x27) ∧
      (∀ a : SlotArg, named .target a.index a.rev → s.store.present .target a.index = true → a.index < 16 →
        refused (.removeTarget (.fields a)) 0x28) ∧
      (∀ a : PutStation, named .station a.index a.rev → a.record = none → refused (.putStation (.fields a)) 0x50) ∧
      (∀ a : PutEntrance, named .entrance a.index a.rev → a.record = none → refused (.putEntrance (.fields a)) 0x54) ∧
      (∀ a : PutCabin, named .cabin a.index a.rev → a.record = none ∨ past a.greeting.expiry →
        refused (.putCabin (.fields a)) 0x60) ∧
      (∀ a : PutScreen, named .screen a.index a.rev → a.record = none → refused (.putScreen (.fields a)) 0x78)) ∧
    (s.mode.mode ≠ .muster →
      (∀ a : AddEntry, a.rev ≠ none ∨ a.record = none → refused (.addEntry (.fields a)) 0x40) ∧
      (∀ (a : AddEntry) (r : EntryRec) (h : Nat), a.rev = none → a.record = some r → (∀ v, a.venue = some v → venue v) →
        h < 256 → s.store.present .entry h = false → past (some (r.start + r.duration + s.prog.linger)) →
        refused (.addEntry (.fields a)) 0x40) ∧
      (∀ a : ChangeEntry, sound .entry a.index a.rev →
        (a.valid = false → refused (.changeEntry (.fields a)) 0x41) ∧
        (a.valid = true → ∀ v, a.venue = some (some v) →
          (s.store.present .target v = false → s.Refused (.changeEntry (.fields a)) 0x41 .reference []) ∧
          (s.store.present .target v = true → ¬venue v → refused (.changeEntry (.fields a)) 0x41)) ∧
        (a.valid = true → (∀ v, a.venue = some (some v) → venue v) → ∀ old, s.prog.row a.index = some old →
          (old.state = .ended ∨ old.state = .cancelled → s.Refused (.changeEntry (.fields a)) 0x41 .final []) ∧
          (old.state ≠ .ended → old.state ≠ .cancelled → a.timing = true →
            past (some (a.start.getD old.start + (a.duration.map clampDuration).getD (old.finish - old.start) +
              s.prog.linger)) → refused (.changeEntry (.fields a)) 0x41))) ∧
      (∀ a : ChangeCabin, (a.rosterGroup = true → s.mode.mode = .normal) → sound .cabin a.index a.rev →
        (a.valid = false ∨ past (expiry a.greeting) → refused (.changeCabin (.fields a)) 0x61) ∧
        (a.valid = true → ¬past (expiry a.greeting) → ∀ x, a.node = some x → s.store.present .node x = false →
          s.Refused (.changeCabin (.fields a)) 0x61 .reference [])) ∧
      (∀ a : SetService, sound .cabin a.index a.rev → 3 ≤ a.service → refused (.setService (.fields a)) 0x62) ∧
      (∀ a : PutPhrase, a.bank ≥ 4 ∨ a.phrase < 16 ∨ 128 ≤ a.phrase → refused (.putPhrase (.fields a)) 0x7C) ∧
      (∀ a : PutPhrase, a.phrase < 256 → named .phrase (a.bank * 256 + a.phrase) a.rev → ¬text 1 48 a.text →
        refused (.putPhrase (.fields a)) 0x7C)) ∧
    (∀ a : SetSegmentState, sound .segment a.index a.rev → 4 ≤ a.availability → refused (.setSegmentState (.fields a)) 0x25) ∧
    (∀ t x, 40 ≤ t ∨ 192 ≤ x → refused (.lookUpRoute (.fields { target := t, node := x })) 0x30) ∧
    (∀ k i, (k ≠ 0 ∧ k ≠ 2) ∨ (k = 0 ∧ 192 ≤ i) ∨ (k = 2 ∧ 40 ≤ i) →
      refused (.readReferences (.fields { kind := k, index := i })) 0x2A) ∧
    (∀ a : ListEntries, 143999 < a.minute ∨ (∃ h, a.handle = some h ∧ 256 ≤ h) → refused (.listEntries (.fields a)) 0x46) ∧
    (∀ n, 16 ≤ n → refused (.readStation (.fields n)) 0x53 ∧ refused (.readRoll (.fields n)) 0x5C) ∧
    (∀ n, 32 ≤ n → refused (.readEntrance (.fields n)) 0x57) ∧
    (∀ n part, n < 512 → part ≠ 1 → refused (.getCabin (.fields { index := n, part := some part })) 0x64) ∧
    (∀ label, ¬text 1 6 label → refused (.findCabin (.fields label)) 0x65) ∧
    (∀ n first, 48 ≤ n ∨ (∃ l, first = some l ∧ 12 ≤ l) →
      refused (.readScreenContent (.fields { index := n, first })) 0x7B) ∧
    (∀ b q, 4 ≤ b ∨ 128 ≤ q → refused (.getPhrase (.fields { bank := b, phrase := q })) 0x7D) ∧
    (∀ n, 48 ≤ n → refused (.readScreenLink (.fields n)) 0x80) ∧
    (∀ n, 512 ≤ n → refused (.readTagLink (.fields n)) 0x81))

/-! ### The deck graph. -/

/-- R22, R27, R30: an accepted PUT NODE stores the deck, makes the slot PRESENT, raises its revision, clears its flag and
answers OK; with no error in the RAM the screens at the node, those that filter by their own deck and the tags of the cabins whose
station is there show it (R157). An accepted REMOVE NODE, of a node with no reference to it, makes the slot ABSENT and changes nothing
else.
The payload items that the rules do not name are the model's choice (log 14). -/
def Obligations.NodeRequestsAct : Prop :=
  (∀ (s : State) (n : Nat) (rev : Option Nat) (deck : Nat), s.mode.mode = .normal → n < 192 → s.store.agrees .node n rev →
    deck ≤ 23 → s.graph.lock = false →
    ∃ t, exec (.putNode (.fields { index := n, rev, deck })) s = .next t ∧
      ({ s with store := { s.store with nodes := Table.set {} s.store.nodes n { deck } }.putSlot .node n }.answer 0x20#8 .ok
        []).Settled t ∧
      (s.wf = true → s.store.ramErrors = [] → t.Shows (.node n))) ∧
  (∀ (s : State) (n : Nat) (rev : Option Nat), s.mode.mode = .normal → n < 192 → s.store.agrees .node n rev →
    s.store.present .node n = true → s.graph.lock = false → (s.graph.nodeRefs n).total = 0 →
    exec (.removeNode (.fields { index := n, rev })) s =
      .next ({ s with store := s.store.removeSlot .node n }.answer 0x21#8 .ok []))

/-- R23, R31, R32, R38, R49, R54: an accepted PUT SEGMENT stores the record and its index entry, an accepted REMOVE SEGMENT
clears both; each marks every present column STALE and overtakes a computation in flight, keeps everything that
withdrawals and compositions keep, and keeps the cells whose chains hold no damaged cell and no hop by that segment that may no
longer be walked (R45, R46). With no error in the RAM the screens at its ends, old and new, and those that a column made STALE or
withdrawn concerns show it (R157). Under the lock a PUT SEGMENT that leaves the index entry as it is is accepted.
The payload items that the rules do not name are the model's choice (log 14). -/
def Obligations.SegmentRequestsAct : Prop :=
  let shows (k : Nat) (new : List Nat) (s t : State) : Prop :=
    t.Shows (.segment (((s.graph.segment k).map fun r : SegRef => [r.endA, r.endB]).getD [] ++ new)) ∧
    ∀ c < 40, s.routes.col c = .valid ∨ (∃ x < 192, t.store.cell c x ≠ s.store.cell c x) → t.Shows (.column c)
  (∀ (s : State) (a : PutSegment) (r : SegRec), s.mode.mode = .normal → a.index < 384 → s.store.agrees .segment a.index a.rev →
    a.record = some r → (s.graph.lock = true → s.graph.segment a.index = some r.ref) →
    s.store.present .node a.endA = true → s.store.present .node a.endB = true →
    ∃ t, exec (.putSegment (.fields a)) s = .next t ∧
      ({ s with
          store := { s.store with segments := Table.set {} s.store.segments a.index r }.putSlot .segment a.index
          graph := s.graph.setSegment a.index (some r.ref) }.answer 0x23#8 .ok []).Kept t ∧
      (∀ c < 40, s.Spares (fun k x y => k = a.index → t.store.traversable .normal k x y = true) c t) ∧
      (s.wf = true → s.store.ramErrors = [] → shows a.index [r.endA, r.endB] s t) ∧
      (∀ c < 40, s.routes.col c ≠ .empty → t.routes.col c = .stale) ∧
      (∀ c, s.routes.engine = some c → t.routes.engine = some { c with overtaken := true })) ∧
  (∀ (s : State) (k : Nat) (rev : Option Nat), s.mode.mode = .normal → k < 384 → s.store.agrees .segment k rev →
    s.store.present .segment k = true → s.graph.lock = false →
    ∃ t, exec (.removeSegment (.fields { index := k, rev })) s = .next t ∧
      ({ s with store := s.store.removeSlot .segment k, graph := s.graph.setSegment k none }.answer 0x24#8 .ok []).Kept t ∧
      (∀ c < 40, s.Spares (fun j _ _ => j ≠ k) c t) ∧
      (s.wf = true → s.store.ramErrors = [] → shows k [] s t) ∧
      (∀ c < 40, s.routes.col c ≠ .empty → t.routes.col c = .stale) ∧
      (∀ c, s.routes.engine = some c → t.routes.engine = some { c with overtaken := true }))

/-- R33: SET SEGMENT STATE is taken in every mode and under the lock: it reads the word of the availability, writes the new
one, raises the revision and answers it; a new value marks every present column STALE, overtakes the computation in
flight, and keeps the cells whose chains hold no damaged cell and no hop by that segment that may no longer be walked (R45, R46); with
no error in the RAM the screens that a column made STALE or withdrawn concerns show it (R157); the value it had already changes
nothing else.
The payload items that the rules do not name are the model's choice (log 14). -/
def Obligations.SetSegmentStateActs : Prop :=
  ∀ (s : State) (k : Nat) (rev : Option Nat) (v : Availability), k < 384 → s.store.agrees .segment k rev →
    s.store.present .segment k = true → s.store.isDamaged (.slot .segment k) = false →
    s.store.readable [192 + k * 2 + 1] →
    let st := s.store.afterReading [192 + k * 2 + 1]
    let u : State := { s with
      store := { st with segments := Table.set {} st.segments k { st.segRec k with availability := v } }.changeSlot .segment k
        [192 + k * 2 + 1] }.answer 0x25#8 .ok (num1 ((s.store.rev .segment k + 1) % 256))
    ∃ t, exec (.setSegmentState (.fields { index := k, rev, availability := v.code })) s = .next t ∧
      ((s.store.segRec k).availability = v → t = u) ∧
      ((s.store.segRec k).availability ≠ v → u.Kept t ∧ (∀ c < 40, s.routes.col c ≠ .empty → t.routes.col c = .stale) ∧
        (∀ c < 40, s.Spares (fun j x y => j = k → t.store.traversable s.mode.mode j x y = true) c t) ∧
        (s.wf = true → s.store.ramErrors = [] → ∀ c < 40,
          s.routes.col c = .valid ∨ (∃ x < 192, t.store.cell c x ≠ s.store.cell c x) → t.Shows (.column c)) ∧
        (∀ c, s.routes.engine = some c → t.routes.engine = some { c with overtaken := true }))

/-- R24, R26, R34, R35, R43: an accepted PUT TARGET stores the record and its index entry, and unless the target was at that
node already its column is STALE; an accepted REMOVE TARGET clears both and leaves the column EMPTY. Where the column was in
flight, a change of node and a removal abandon the computation, and the engine takes the next column at once; a moved column
joins the queue's tail before that (log 17). No other column's state changes but by damage that the event finds,
and a put withdraws no cell whose chain holds no damaged cell but where the target has moved. With no error in the RAM the screens that
the target's name, its node and its column concern show them after a put (R157).
The payload items that the rules do not name are the model's choice (log 14). -/
def Obligations.TargetRequestsAct : Prop :=
  (∀ (s : State) (a : PutTarget) (r : TargetRec), s.mode.mode = .normal → 16 ≤ a.index → a.index < 40 →
    s.store.agrees .target a.index a.rev → a.record = some r → s.graph.lock = false → s.store.present .node a.node = true →
    (a.kind = 1 → s.graph.venueUses a.index = 0) →
    ∃ t, exec (.putTarget (.fields a)) s = .next t ∧
      ({ s with
          store := { s.store with targets := Table.set {} s.store.targets a.index r }.putSlot .target a.index
          graph := s.graph.setTarget a.index (some { node := r.node, kind := r.kind })
          routes := t.routes }.answer 0x27#8 .ok []).Kept t ∧
      (s.graph.targetNode a.index ≠ some r.node → t.routes.col a.index = .stale) ∧
      (∀ c, s.routes.engine = some c →
        s.graph.targetNode a.index = none ∨ s.graph.targetNode a.index = some r.node ∨ c.column ≠ a.index →
        t.routes.engine = some c) ∧
      (∀ old, s.wf = true → s.QueueInOrder → s.store.ramErrors = [] → s.routes.inFlight a.index = true →
        s.graph.targetNode a.index = some old → old ≠ r.node →
        t.routes.TookNext (s.routes.queue.map QueuedCol.column ++ [a.index])) ∧
      (∀ c, c ≠ a.index → t.routes.col c = s.routes.col c ∨ s.routes.col c ≠ .empty ∧ t.routes.col c = .stale) ∧
      (∀ c < 40, c ≠ a.index ∨ s.graph.targetNode a.index = some r.node → s.Spares (fun _ _ _ => True) c t) ∧
      (s.wf = true → s.store.ramErrors = [] → t.Shows (.targetName a.index) ∧
        ∀ old, s.graph.targetNode a.index = some old → old ≠ r.node →
          t.Shows (.targetNode a.index) ∧ t.Shows (.column a.index))) ∧
  (∀ (s : State) (i : Nat) (rev : Option Nat), s.wf = true → s.mode.mode = .normal → 16 ≤ i → i < 40 →
    s.store.agrees .target i rev → s.store.present .target i = true → s.graph.lock = false →
    s.graph.screenListings i = 0 → s.graph.venueUses i = 0 →
    ∃ t, exec (.removeTarget (.fields { index := i, rev })) s = .next t ∧
      ({ s with store := s.store.removeSlot .target i, graph := s.graph.setTarget i none, routes := t.routes }.answer 0x28#8 .ok
        []).Kept t ∧
      t.routes.col i = .empty ∧ t.routes.isQueued i = false ∧
      (∀ c, c ≠ i → t.routes.col c = s.routes.col c ∧ (c < 40 → ∀ x < 192, t.store.cell c x = s.store.cell c x)) ∧
      (let waiting := s.routes.queue.filter (·.column ≠ i)
       (s.routes.inFlight i = false → t.routes.engine = s.routes.engine ∧ t.routes.queue = waiting) ∧
       (s.routes.inFlight i = true → t.routes.TookNext (waiting.map QueuedCol.column) ∧
         (waiting = [] → t.isPending .routes = true))))

/-- R25, R36, R37: the reference index counts the segment ends, targets, stations, screens and cabins at a node, the screens that
list a target and the entries with it as venue. GET NODE, GET SEGMENT and GET TARGET answer the stored fields and the revision of a PRESENT, undamaged slot whose
words hold no double-bit error; READ REFERENCES answers the counts of the index; LOCK TOPOLOGY sets the lock. Nothing else
changes but what reading corrects. -/
def Obligations.GraphReadsAnswer : Prop :=
  (∀ (g : Graph) (i : Nat), g.wf = true →
    let c := g.nodeRefs i
    (∃ a b, Counts g.segment (fun r => decide (r.endA = i)) a ∧ Counts g.segment (fun r => decide (r.endB = i)) b ∧
      c.segmentEnds = a + b) ∧
    Counts g.target (fun r => decide (r.node = i)) c.targets ∧
    Counts g.stationNode (fun x => decide (x = i)) c.stations ∧
    Counts g.screen (fun r => decide (r.node = i)) c.screens ∧
    Counts g.cabinNode (fun x => decide (x = i)) c.cabins ∧
    c.total = c.segmentEnds + c.targets + c.stations + c.screens + c.cabins ∧
    Counts g.screen (fun r => r.targets.contains i) (g.screenListings i) ∧
    Counts g.entry (fun r => decide (r.venue = some i)) (g.venueUses i)) ∧
  ∀ s : State,
    (∀ n < 192, s.store.present .node n = true → s.store.isDamaged (.slot .node n) = false →
      s.store.readable (Place.slot .node n).words →
      exec (.getNode (.fields n)) s = .next ({ s with store := s.store.afterReading (Place.slot .node n).words }.answer 0x22#8
        .ok (num1 (Table.get ({} : NodeRec) s.store.nodes n).deck ++ num1 (s.store.rev .node n)))) ∧
    (∀ k < 384, s.store.present .segment k = true → s.store.isDamaged (.slot .segment k) = false →
      s.store.readable (Place.slot .segment k).words →
      let r := s.store.segRec k
      exec (.getSegment (.fields k)) s =
        .next ({ s with store := s.store.afterReading (Place.slot .segment k).words }.answer 0x26#8 .ok
          (num1 r.endA ++ num1 r.endB ++ num1 r.length ++ num1 r.kind.code ++ num1 r.direction.code ++
            num1 r.availability.code ++ num1 r.arrowA.code ++ num1 r.arrowB.code ++ num1 (s.store.rev .segment k)))) ∧
    (∀ i < 40, s.store.present .target i = true → s.store.isDamaged (.slot .target i) = false →
      s.store.readable (Place.slot .target i).words →
      let r := Table.get ({} : TargetRec) s.store.targets i
      exec (.getTarget (.fields i)) s =
        .next ({ s with store := s.store.afterReading (Place.slot .target i).words }.answer 0x29#8 .ok
          (num1 r.node ++ num1 r.phrase ++ num1 r.kind.code ++ num1 (s.store.rev .target i)))) ∧
    (∀ n < 192,
      let c := s.graph.nodeRefs n
      exec (.readReferences (.fields { kind := 0, index := n })) s = .next (s.answer 0x2A#8 .ok
        (num2 c.segmentEnds ++ num1 c.targets ++ num1 c.stations ++ num1 c.screens ++ num2 c.cabins))) ∧
    (∀ i < 40, exec (.readReferences (.fields { kind := 2, index := i })) s =
      .next (s.answer 0x2A#8 .ok (num1 (s.graph.screenListings i) ++ num2 (s.graph.venueUses i)))) ∧
    (s.mode.mode = .normal →
      exec .lockTopology s = .next ({ s with graph := { s.graph with lock := true } }.answer 0x2B#8 .ok []))

/-! ### Routes. -/

/-- R41 and R61: a segment's cost is its length times its kind's factor, divided by 4 and rounded up; walking minutes are
phrase 2 at distance 0, the distance over 75 rounded up within 1..59 up to 4,425, phrase 3 beyond, and for an absent distance
phrase 11 in NORMAL and phrase 1 in DRILL and MUSTER. -/
def Obligations.CostsAndWalkingMinutes : Prop :=
  (∀ (length : Nat) (k : SegKind), 1 ≤ length → length ≤ 120 →
    let factor := match k with | .corridor => 4 | .openDeck => 5 | .ramp => 6 | .lift => 8 | .stair => 12
    length * factor ≤ 4 * segmentCost length k ∧ 4 * segmentCost length k < length * factor + 4 ∧
      1 ≤ segmentCost length k ∧ segmentCost length k ≤ 360) ∧
  (∀ m : Mode, walking m (some 0) = .phrase 2 ∧
    (∀ d, 1 ≤ d → d ≤ 4425 → ∃ n, walking m (some d) = .minutes n ∧ 1 ≤ n ∧ n ≤ 59 ∧ d ≤ n * 75 ∧ n * 75 < d + 75) ∧
    (∀ d, 4426 ≤ d → walking m (some d) = .phrase 3) ∧
    walking m none = .phrase (if m = .normal then 11 else 1))

/-- R28, R42: a segment is traversable from x to y in a mode exactly where R28's conditions hold: it is PRESENT and undamaged, x and y
are its ends, the direction allows the way, its availability allows the mode (OPEN always, CLOSED never, MUSTER ONLY in DRILL and
MUSTER, NORMAL ONLY in NORMAL), and it is no LIFT outside NORMAL. The computed column holds at each node the least cost of a walk to the target's node by traversable segments over
PRESENT nodes, and the lowest-numbered segment that such a least walk can begin with; at the target's node it holds distance 0,
and where there is no walk it holds nothing. -/
def Obligations.ComputedColumnsAreLeastCost : Prop :=
  (∀ (st : Store) (m : Mode) (k x y : Nat),
    let r := st.segRec k
    st.traversable m k x y = true ↔ st.present .segment k = true ∧ st.isDamaged (.slot .segment k) = false ∧
      ((r.endA = x ∧ r.endB = y ∧ (r.direction = .both ∨ r.direction = .aToB)) ∨
        (r.endB = x ∧ r.endA = y ∧ (r.direction = .both ∨ r.direction = .bToA))) ∧
      (match r.availability with
        | .openAll => True
        | .closed => False
        | .musterOnly => m = .drill ∨ m = .muster
        | .normalOnly => m = .normal) ∧
      (r.kind = .lift → m = .normal)) ∧
  ∀ (st : Store) (g : Graph) (m : Mode) (t goal : Nat), g.targetNode t = some goal → goal < 192 →
    (∀ k < 384, st.present .segment k = true → (st.segRec k).endA < 192 ∧ (st.segRec k).endB < 192) →
    let cell := computedColumn st g m t
    cell goal = { dist := some 0, next := none } ∧
    ∀ x < 192, x ≠ goal →
      ((cell x).dist = none → (cell x).next = none ∧ ∀ c, ¬Walk st m x goal c) ∧
      (∀ d, (cell x).dist = some d → Walk st m x goal d ∧ (∀ c, Walk st m x goal c → d ≤ c) ∧
        ∃ k, (cell x).next = some k ∧
          (let begins (k : Nat) : Prop := ∃ y c, k < 384 ∧ st.traversable m k x y = true ∧ st.present .node x = true ∧
              st.present .node y = true ∧ Walk st m y goal c ∧
              d = segmentCost (st.segRec k).length (st.segRec k).kind + c
           begins k ∧ ∀ j < k, ¬begins j))

/-- R39, R49, R52, R54, R56 to R58: the computation in flight reads a segment, and one that it finds damaged marks the columns STALE
and overtakes it; one that is not overtaken installs its column, which becomes VALID and which the screens concerned show (R157), and the engine takes the head of the queue or becomes IDLE with the ROUTES notice; an overtaken one installs nothing and
its column stays queued or in flight; RECOMPUTE ALL marks every present column STALE and does not overtake. A column that joins the
queue takes the joining count's next value, past 65,535 after the queued orders are renumbered; one that is queued or in flight does
not join, and an IDLE engine takes it at once. What a completion does of the reads still due is the model's (log 18). -/
def Obligations.RouteEngineActs : Prop :=
  (∀ (s : State) (c : Computation) (k : Nat), s.routes.engine = some c → k < 384 → s.store.present .segment k = true →
    s.store.isDamaged (.slot .segment k) = false → k ∉ c.read → s.store.readable (Place.slot .segment k).words →
    exec (.computationSegmentRead k) s = .next { s with
      store := s.store.afterReading (Place.slot .segment k).words
      routes := { s.routes with engine := some { c with read := c.read ++ [k] } } }) ∧
  (∀ (s : State) (c : Computation) (k : Nat), s.routes.engine = some c → k < 384 → s.store.present .segment k = true →
    s.store.isDamaged (.slot .segment k) = false → k ∉ c.read → ¬s.store.readable (Place.slot .segment k).words →
    ∃ t, exec (.computationSegmentRead k) s = .next t ∧ State.DamageTaken .segment k
      { s with routes := { s.routes with engine := some { c with read := c.read ++ [k] } } } t) ∧
  (∀ (s : State) (c : Computation), s.wf = true → s.routes.engine = some c → c.overtaken = false → s.store.ramErrors = [] →
    ∃ t, exec .computationCompletes s = .next t ∧ t.routes.col c.column = .valid ∧
      (∀ x < 192, t.store.cell c.column x = computedColumn s.store s.graph s.mode.mode c.column x) ∧
      (∀ i x, x < 192 → i ≠ c.column → t.store.cell i x = s.store.cell i x) ∧
      (∀ i, i ≠ c.column → t.routes.col i = s.routes.col i) ∧
      (s.routes.queue = [] → t.routes.engine = none ∧ t.isPending .routes = true) ∧
      (∀ q rest, s.routes.queue = q :: rest →
        t.routes.engine = some { column := q.column, overtaken := false, read := [] } ∧ t.routes.queue = rest ∧
        t.port = s.port) ∧
      ({ s with store := t.store, routes := t.routes }).Kept t ∧ t.Shows (.column c.column)) ∧
  (∀ (s : State) (c : Computation), s.routes.engine = some c → c.overtaken = true → s.store.ramErrors = [] →
    ∃ t, exec .computationCompletes s = .next t ∧ t = { s with routes := t.routes } ∧
      (t.routes.isQueued c.column = true ∨ t.routes.inFlight c.column = true) ∧ (∀ i, t.routes.col i = s.routes.col i)) ∧
  (∀ s : State, ∃ t, exec .recomputeAll s = .next t ∧ (s.answer 0x31#8 .ok []).Kept t ∧
    (∀ c < 40, s.routes.col c ≠ .empty → t.routes.col c = .stale) ∧
    (∀ c, s.routes.engine = some c → t.routes.engine = some c) ∧
    (s.wf = true → s.store.ramErrors = [] → ∀ c < 40, s.routes.col c = .valid → t.Shows (.column c))) ∧
  (∀ (m : Mode) (t : Nat) (r : Routes),
    (r.isQueued t = true ∨ r.inFlight t = true → r.join m t = r) ∧
    (r.engine = none → r.queue = [] → r.join m t = { r with
      joinCount := if r.joinCount < 65535 then r.joinCount + 1 else 0, engine := some { column := t } }) ∧
    (∀ c, r.engine = some c → r.isQueued t = false → r.inFlight t = false →
      let next := if r.joinCount < 65535 then r.joinCount + 1 else r.queue.length
      let place (q : QueuedCol) : Nat := if r.joinCount < 65535 then q.order else r.queue.countP fun p => p.order < q.order
      (r.join m t) = { r with joinCount := next, queue := (r.join m t).queue } ∧
      ∀ q, q ∈ (r.join m t).queue ↔ q = { column := t, order := next } ∨
        ∃ p ∈ r.queue, q = { column := p.column, order := place p }))

/-- R47, R59, R60: LOOK UP ROUTE answers the column's state and, of a column that is not EMPTY, the distance, the next segment, its
arrow at the node, the walking minutes and the held flag; where the cell's DAMAGED flag stands or its read finds damage it answers
DAMAGED with kind and index, and the cell is withdrawn: written empty, its flag clear, its column STALE; and no cell with it whose
chain is whole (R45, R47); and the screens that the column concerns show it (R157). READ ROUTE ENGINE answers the engine's own
state.
The byte forms that section 12 leaves open are the model's choice (logs 15, 42). -/
def Obligations.RouteReadsAnswer : Prop :=
  ∀ s : State,
    (∀ t x, t < 40 → x < 192 → s.routes.col t = .empty →
      exec (.lookUpRoute (.fields { target := t, node := x })) s =
        .next (s.answer 0x30#8 .ok ([0#8, 0xFF#8, 0xFF#8, 0xFF#8, 0xFF#8, 0xFF#8, 0xFF#8, 1#8] ++
          [if s.mode.mode = .normal then 11#8 else 1#8] ++ [0#8]))) ∧
    (∀ t x, t < 40 → x < 192 → s.routes.col t ≠ .empty → s.store.isDamaged (.cell t x) = false →
      s.store.readable [24392 + t * 192 + x] →
      let c := s.store.cell t x
      exec (.lookUpRoute (.fields { target := t, node := x })) s =
        .next ({ s with store := s.store.afterReading [24392 + t * 192 + x] }.answer 0x30#8 .ok
          (num1 (s.routes.col t).code ++ opt3 c.dist ++ opt2 c.next ++
            opt1 ((c.next.bind fun k => (s.graph.segment k).map fun r : SegRef => if r.endA = x then r.arrowA else r.arrowB).map
              Arrow.code) ++ walkingBytes (walking s.mode.mode c.dist) ++ flag (decide (s.routes.col t = ColState.stale))))) ∧
    (∀ t x, s.wf = true → t < 40 → x < 192 → s.routes.col t ≠ .empty →
      s.store.isDamaged (.cell t x) = true ∨ ¬s.store.readable [24392 + t * 192 + x] →
      ∃ u, exec (.lookUpRoute (.fields { target := t, node := x })) s = .next u ∧
        (s.answer 0x30#8 .damaged (Place.cell t x).bytes).Kept u ∧ u.store.cell t x = {} ∧
        u.store.isDamaged (.cell t x) = false ∧ u.routes.col t = .stale ∧
        (∀ y, u.store.cell t y = s.store.cell t y ∨ u.store.cell t y = {}) ∧
        (∀ c < 40, s.Spares (fun _ _ _ => True) c u) ∧
        ((∀ w, Table.get .clean s.store.ramErrors w = .double → w = 24392 + t * 192 + x) → u.Shows (.column t)) ∧
        (s.store.isDamaged (.cell t x) = false → u.isPending .store = true)) ∧
    exec .readRouteEngine s = .next (s.answer 0x32#8 .ok
      (flag s.routes.engine.isSome ++ groupBytes (s.routes.engine.map fun c => num1 c.column ++ flag c.overtaken) ++
        listBytes (s.routes.queue.map fun q => num1 q.column) ++
        (List.range 40).flatMap fun t => num1 (s.routes.col t).code))

/-! ### The time base and the ship clock. -/

/-- R63, R65, R66, R98, R103, R104, R117, R135, R137: a 1 Hz tick that has fallen moves a RUNNING clock by one second, a carried
minute is a clock event, the last second makes the clock AT LIMIT with the CLOCK notice, and a clock that is UNSET or AT LIMIT
stays; MINUTE_BOUNDARY and CLOCK_REACHES_LIMIT are those ticks (log 5). A 16 Hz tick that has fallen moves the 16 lamp generators.
A tick of either tap that has not fallen does nothing, and TICK_64HZ takes those that have and are not taken first (log 35). A 64 Hz
tick moves the divider by 512 reference periods, out of which ticks of the other taps fall every 2,048 and 32,768, samples the 64
beams and the alarm, counts the crossings that it completes in DRILL and MUSTER, sets the ENTRANCE notice at a FAULT, and makes the
mode change event of a taken assertion; a clock event composes every screen, and a changed effective station the screens assigned to
it (R157). That it takes the entrances in ascending order and the alarm after them, and where a tag's
DECK line takes the station's node from, are the model's choice (logs 24, 47). -/
def Obligations.TapsPaceTheirUsers : Prop :=
  let taken1 (s : State) (c : Clock) : State := { s with time := { s.time with clock := c, due1 := false } }
  (∀ s : State, s.time.due1 = false →
    exec .tick1Hz s = .next s ∧ exec .minuteBoundary s = .next s ∧ exec .clockReachesLimit s = .next s) ∧
  (∀ s : State, s.time.due16 = false → exec .tick16Hz s = .next s) ∧
  (∀ (s : State) (t : ShipTime), s.time.due1 = true → s.time.clock = .running t → t.second < 59 →
    exec .tick1Hz s = .next (taken1 s (.running { t with second := t.second + 1 })) ∧
    exec .minuteBoundary s = .next s ∧ exec .clockReachesLimit s = .next s) ∧
  (∀ (s : State) (day minute : Nat), s.wf = true → s.InRange → s.time.due1 = true →
    s.time.clock = .running { day, minute, second := 59 } → day ≤ 99 → minute ≤ 1439 → ¬(day = 99 ∧ minute = 1439) →
    let u : ShipTime := if minute < 1439 then { day, minute := minute + 1, second := 0 }
      else { day := day + 1, minute := 0, second := 0 }
    u.voyage = day * 1440 + minute + 1 ∧ exec .clockReachesLimit s = .next s ∧
    ∀ c, c = .tick1Hz ∨ c = .minuteBoundary → ∃ t, exec c s = .next t ∧
      State.ClockMoved false u.voyage (taken1 s (.running u)) t) ∧
  (∀ s : State, s.time.due1 = true → s.time.clock = .running { day := 99, minute := 1439, second := 59 } →
    exec .minuteBoundary s = .next s ∧ ∀ c, c = .tick1Hz ∨ c = .clockReachesLimit →
      exec c s = .next (State.notice .clock (taken1 s (.atLimit { day := 99, minute := 1439, second := 59 })))) ∧
  (∀ s : State, s.time.due1 = true → (s.time.clock = .unset ∨ ∃ t, s.time.clock = .atLimit t) →
    exec .tick1Hz s = .next (taken1 s s.time.clock) ∧ exec .minuteBoundary s = .next s ∧
    exec .clockReachesLimit s = .next s) ∧
  (∀ s : State, s.wf = true → s.time.due16 = true → ∃ t, exec .tick16Hz s = .next t ∧
    t = { s with time := { s.time with due16 := false }, muster := { s.muster with lamps := t.muster.lamps } } ∧ ∀ l < 16,
      let p := s.muster.lamp l
      let q := t.muster.lamp l
      q.owner = p.owner ∧ q.onCount = p.onCount ∧ q.offCount = p.offCount ∧
      (p.fresh = true → q.fresh = false ∧ q.phaseOn = true ∧ q.counter = p.onCount ∧ (q.line = true ↔ p.onCount ≠ 0)) ∧
      (p.fresh = false → p.onCount = 0 ∨ p.offCount = 0 → (q.line = true ↔ p.onCount ≠ 0)) ∧
      (p.fresh = false → p.onCount ≠ 0 → p.offCount ≠ 0 → q.line = q.phaseOn ∧
        (2 ≤ p.counter → q.phaseOn = p.phaseOn ∧ q.counter = p.counter - 1) ∧
        (p.counter ≤ 1 → q.phaseOn = !p.phaseOn ∧ q.counter = if q.phaseOn then p.onCount else p.offCount))) ∧
  (∀ (s : State) (beams : BitVec 64) (alarm : Bool), ∃ u v, exec .tick16Hz s = .next u ∧ exec .tick1Hz u = .next v ∧
    v.time.due16 = false ∧ v.time.due1 = false ∧ exec (.tick64Hz beams alarm) s = exec (.tick64Hz beams alarm) v) ∧
  (∀ (s : State) (beams : BitVec 64) (alarm : Bool), s.wf = true → s.time.due16 = false → s.time.due1 = false →
    let tick (k : Nat) : EntranceTick := s.muster.entranceTick k (beams.getLsbD (2 * k)) (beams.getLsbD (2 * k + 1))
    let crossings (n : Nat) : List Crossing := (List.range 32).filterMap fun k =>
      if (s.muster.entrance k).bind EntranceRec.station = some n then (tick k).crossing else none
    let divider := (s.time.refCount + 512) % 32768
    ∃ t, exec (.tick64Hz beams alarm) s = .next t ∧
    t.time = { s.time with
      refCount := s.time.refCount + 512, due16 := decide (divider % 2048 = 0), due1 := decide (divider = 0) } ∧
    (∀ i < 64, t.muster.beam i = (s.muster.beam i).sample (s.muster.filterChoice (i / 2)) (beams.getLsbD i)) ∧
    (∀ k < 32, t.muster.decoder k = (tick k).decoder ∧ ((tick k).faulted = true → t.isPending .entrance = true)) ∧
    (s.mode.mode ≠ .normal → ∀ n, s.muster.hasStation n = true →
      ((crossings n).foldl (StationLive.counted s.time.clock.value) (s.muster.live n)).SameCounts (t.muster.live n)) ∧
    t.mode.filter = s.mode.filter.sample alarm ∧
    (let changes := s.mode.filter.state ≠ .asserted ∧ t.mode.filter.state = .asserted ∧ s.mode.mode ≠ .muster
     (changes → t.mode = { s.mode with
          mode := .muster, changeCount := (s.mode.changeCount + 1) % 65536, lastCause := .alarm, filter := t.mode.filter } ∧
        t.isPending .mode = true ∧ t.muster.session = some .muster ∧ State.ModeTaken .muster s t) ∧
     (¬changes → t.mode = { s.mode with filter := t.mode.filter } ∧ t.muster.session = s.muster.session ∧
        (s.mode.mode = .normal → ∀ n, t.muster.live n = s.muster.live n))) ∧
    (s.store.ramErrors = [] → ∀ n < 16, t.muster.effectiveOf n ≠ s.muster.effectiveOf n → t.Shows (.effective n)) ∧
    s.store.Kept t.store ∧ t.graph = s.graph ∧ t.prog = s.prog ∧ t.cabinTable = s.cabinTable ∧
    t.port.buffer = s.port.buffer ∧ t.muster.roster = s.muster.roster)

/-- R67 to R70: an accepted SET CLOCK makes the clock RUNNING at the value given; an accepted SHIFT CLOCK moves the voyage minute
and leaves the second, and an ADVANCE past the limit clamps there, AT LIMIT with the CLOCK notice; each is a clock event and
answers the new value. A SET CLOCK out of range, a SHIFT CLOCK whose direction is neither of the two or whose amount is none of the
twelve, and a RETARD past minute 0, are refused with RANGE; a SHIFT CLOCK in UNSET, and a RETARD AT LIMIT, with MODE.
The byte forms that section 12 leaves open are the model's choice (log 15). -/
def Obligations.ClockRequestsSetAndShift : Prop :=
  (∀ (s : State) (a : SetClock), s.wf = true → s.InRange →
    let v : ShipTime := { day := a.day, minute := a.minute, second := a.second }
    (a.day ≤ 99 → a.minute ≤ 1439 → a.second ≤ 59 → ∃ t, exec (.setClock (.fields a)) s = .next t ∧
      State.ClockMoved true v.voyage
        ({ s with time := { s.time with clock := .running v } }.answer 0x38#8 .ok
          (num1 a.day ++ num2 a.minute ++ num1 a.second)) t) ∧
    (99 < a.day ∨ 1439 < a.minute ∨ 59 < a.second → exec (.setClock (.fields a)) s = .next (s.answer 0x38#8 .range []))) ∧
  (∀ (s : State) (v : ShipTime) (k : Nat), s.wf = true → s.InRange → s.mode.mode ≠ .muster → s.time.clock = .running v →
    k ∈ [15, 30, 45, 60, 75, 90, 105, 120, 135, 150, 165, 180] →
    let at' (m : Nat) : ShipTime := { day := m / 1440, minute := m % 1440, second := v.second }
    let shifted (m : Nat) : State :=
      { s with time := { s.time with clock := .running (at' m) } }.answer 0x39#8 .ok (timeBytes (at' m) ++ [1#8])
    (v.voyage + k ≤ 143999 → ∃ t, exec (.shiftClock (.fields { direction := 0, amount := k })) s = .next t ∧
      State.ClockMoved false (v.voyage + k) (shifted (v.voyage + k)) t) ∧
    (143999 < v.voyage + k → ∃ t, exec (.shiftClock (.fields { direction := 0, amount := k })) s = .next t ∧
      State.ClockMoved false 143999
        ((State.notice .clock { s with time := { s.time with clock := .atLimit (at' 143999) } }).answer 0x39#8 .ok
          (timeBytes (at' 143999) ++ [2#8])) t) ∧
    (k ≤ v.voyage → ∃ t, exec (.shiftClock (.fields { direction := 1, amount := k })) s = .next t ∧
      State.ClockMoved false (v.voyage - k) (shifted (v.voyage - k)) t) ∧
    (v.voyage < k →
      exec (.shiftClock (.fields { direction := 1, amount := k })) s = .next (s.answer 0x39#8 .range []))) ∧
  (∀ (s : State) (second k : Nat), s.wf = true → s.InRange → s.mode.mode ≠ .muster →
    s.time.clock = .atLimit { day := 99, minute := 1439, second } →
    k ∈ [15, 30, 45, 60, 75, 90, 105, 120, 135, 150, 165, 180] →
    (∃ t, exec (.shiftClock (.fields { direction := 0, amount := k })) s = .next t ∧
      State.ClockMoved false 143999
        (s.answer 0x39#8 .ok (timeBytes { day := 99, minute := 1439, second } ++ [2#8])) t) ∧
    exec (.shiftClock (.fields { direction := 1, amount := k })) s = .next (s.answer 0x39#8 .mode [])) ∧
  (∀ (s : State) (a : ShiftClock), s.mode.mode ≠ .muster →
    let amounts := [15, 30, 45, 60, 75, 90, 105, 120, 135, 150, 165, 180]
    (2 ≤ a.direction ∨ a.amount ∉ amounts → exec (.shiftClock (.fields a)) s = .next (s.answer 0x39#8 .range [])) ∧
    (a.direction < 2 → a.amount ∈ amounts → s.time.clock = .unset →
      exec (.shiftClock (.fields a)) s = .next (s.answer 0x39#8 .mode [])))

/-- R72: READ CLOCK answers the state and, in RUNNING and AT LIMIT, the value and the voyage minute; it changes nothing; READ
STATUS answers the state alone. The code of a state and the presence byte are R190's and log 15's. -/
def Obligations.ReadClockAnswers : Prop :=
  ∀ s : State,
    (s.time.clock = .unset → exec .readClock s = .next (s.answer 0x3A#8 .ok [0#8, 0#8])) ∧
    (∀ (t : ShipTime) (code : Byte), (s.time.clock = .running t ∧ code = 1#8) ∨ (s.time.clock = .atLimit t ∧ code = 2#8) →
      exec .readClock s = .next (s.answer 0x3A#8 .ok
        ([code, 1#8] ++ num1 t.day ++ num2 t.minute ++ num1 t.second ++ num3 (t.day * 1440 + t.minute)))) ∧
    ∃ items : List Byte, exec .readStatus s = .next (s.answer 0x90#8 .ok items) ∧
      items[5]? = some (byte s.time.clock.code)

/-! ### The daily programme. -/

/-- R76: an entry's condition state for now N, its start S, end E and lead L, the arithmetic signed: exactly one of the four
holds where S is below E, SCHEDULED cannot hold while S − L is below 0, and an entry with lead 0 has no SOON. The states
stand in the order SCHEDULED, SOON, RUNNING, ENDED, and a clock that holds no value evaluates nothing. -/
def Obligations.ConditionStatesFollowNow : Prop :=
  (∀ (n start finish lead : Nat), start < finish →
    let N : Int := n
    let S : Int := start
    let E : Int := finish
    let L : Int := lead
    let c := conditionState n start finish lead
    (c = .scheduled ↔ N < S - L) ∧ (c = .soon ↔ S - L ≤ N ∧ N < S) ∧ (c = .running ↔ S ≤ N ∧ N < E) ∧
      (c = .ended ↔ E ≤ N) ∧ c ≠ .cancelled ∧ (S - L < 0 → c ≠ .scheduled) ∧ (lead = 0 → c ≠ .soon)) ∧
  (∀ a b : EntryState, a ≠ .cancelled → b ≠ .cancelled →
    let order : List EntryState := [.scheduled, .soon, .running, .ended]
    ((laterState a b = b ∧ order.idxOf a ≤ order.idxOf b) ∨ (laterState a b = a ∧ order.idxOf b ≤ order.idxOf a))) ∧
  (∀ (n : Nat) (r : ScheduleRow), r.state = .cancelled → r.evaluate n = r) ∧
  (∀ (s : State) (t : ShipTime), s.time.clock = .running t ∨ s.time.clock = .atLimit t →
    s.now = some (t.day * 1440 + t.minute)) ∧
  (∀ (bySet : Bool) (e : Ev), e.time.clock = .unset → e.now = none ∧ e.programmeClock bySet = e)

/-- R74, R79 to R83: an accepted ADD ENTRY writes the record at the lowest free handle with the state that the clock gives; an
accepted CHANGE ENTRY replaces the fields named and re-derives the state where the timing is named. Each enters the venue in
the index, raises the revision, and answers ADJUSTED where it clamped a duration or a lead; with no error in the RAM the screens with
programme lines show it (R157).
The payload items that the rules do not name are the model's choice (log 14). -/
def Obligations.EntryRequestsAct : Prop :=
  (∀ (s : State) (a : AddEntry) (r : EntryRec) (h : Nat), s.mode.mode ≠ .muster → a.rev = none → a.record = some r →
    (∀ v, a.venue = some v → s.store.present .target v = true ∧ ∃ n, s.graph.target v = some { node := n, kind := .venue }) →
    h < 256 → s.store.present .entry h = false → (∀ j < h, s.store.present .entry j = true) →
    (∀ n, s.now = some n → n < r.start + r.duration + s.prog.linger) →
    let row : ScheduleRow := {
      state := match s.now with
        | none => .scheduled
        | some n => conditionState n r.start (r.start + r.duration) r.lead
      since := s.now, start := r.start, finish := r.start + r.duration, lead := r.lead, cancelled := none
      capturePending := false }
    ∃ t, exec (.addEntry (.fields a)) s = .next t ∧
      ({ s with
          store := { s.store with entries := Table.set {} s.store.entries h r }.putSlot .entry h
          graph := s.graph.setEntry h (some { venue := a.venue })
          prog := s.prog.setRow h (some row) }.answer 0x40#8 (if a.adjusted then .adjusted else .ok)
        (num1 h ++ num1 ((s.store.rev .entry h + 1) % 256) ++ num2 r.duration ++ num1 r.lead)).Settled t ∧
      (s.wf = true → s.store.ramErrors = [] → t.Shows .entry)) ∧
  (∀ (s : State) (a : ChangeEntry) (old : ScheduleRow), s.mode.mode ≠ .muster → a.index < 256 →
    s.store.agrees .entry a.index a.rev → s.store.present .entry a.index = true →
    s.store.isDamaged (.slot .entry a.index) = false → a.valid = true →
    (∀ v, a.venue = some (some v) → s.store.present .target v = true ∧
      ∃ n, s.graph.target v = some { node := n, kind := .venue }) →
    s.prog.row a.index = some old → old.state ≠ .ended → old.state ≠ .cancelled → s.store.readable (changeEntryWords a) →
    let S := a.start.getD old.start
    let D := (a.duration.map clampDuration).getD (old.finish - old.start)
    let L := (a.lead.map clampLead).getD old.lead
    (a.timing = true → ∀ n, s.now = some n → n < S + D + s.prog.linger) →
    let state := match s.now with
      | none => old.state
      | some n => conditionState n S (S + D) L
    let row : ScheduleRow := if a.timing then
      { old with state, since := if state = old.state then old.since else s.now, start := S, finish := S + D, lead := L }
      else old
    let st := s.store.afterReading (changeEntryWords a)
    let r := a.apply (st.entryRec a.index)
    ∃ t, exec (.changeEntry (.fields a)) s = .next t ∧
      ({ s with
          store := { st with entries := Table.set {} st.entries a.index r }.changeSlot .entry a.index (changeEntryWords a)
          graph := if a.venue.isSome then s.graph.setEntry a.index (some { venue := r.venue }) else s.graph
          prog := if a.timing then s.prog.setRow a.index (some row) else s.prog }.answer 0x41#8
        (if a.adjusted then .adjusted else .ok)
        (num1 ((s.store.rev .entry a.index + 1) % 256) ++ num1 row.state.code ++ num2 (row.finish - row.start) ++
          num1 row.lead)).Settled t ∧
      (s.wf = true → s.store.ramErrors = [] → t.Shows .entry))

/-- R78, R84, R86, R87: CANCEL ENTRY makes an entry CANCELLED with the present minute, or with its capture pending while the
clock is UNSET; RETIRE ENTRY removes its slot, its row and its venue use; SET LINGER sets the linger, clamped to 60, and
while the clock holds a value retires what is over by it, and nothing else. With no error in the RAM the screens with programme lines
show it where an entry is cancelled or retired (R157).
The payload items that the rules do not name are the model's choice (log 14). -/
def Obligations.EntriesAreCancelledAndRetired : Prop :=
  (∀ (s : State) (h : Nat) (rev : Option Nat) (old : ScheduleRow), s.mode.mode ≠ .muster → h < 256 →
    s.store.agrees .entry h rev → s.store.present .entry h = true → s.store.isDamaged (.slot .entry h) = false →
    s.prog.row h = some old → old.state ≠ .ended → old.state ≠ .cancelled → s.store.readable [1064 + h * 12 + 11] →
    let st := s.store.afterReading [1064 + h * 12 + 11]
    ∃ t, exec (.cancelEntry (.fields { index := h, rev })) s = .next t ∧
      ({ s with
          store := { st with entries := Table.set {} st.entries h { st.entryRec h with cancelled := s.now } }.changeSlot .entry
            h [1064 + h * 12 + 11]
          prog := s.prog.setRow h (some { old with
            state := .cancelled, since := s.now, cancelled := s.now, capturePending := s.now.isNone }) }.answer 0x42#8 .ok
        (num1 ((s.store.rev .entry h + 1) % 256) ++ opt3 s.now)).Settled t ∧
      (s.wf = true → s.store.ramErrors = [] → t.Shows .entry)) ∧
  (∀ (s : State) (h : Nat) (rev : Option Nat), s.wf = true → s.mode.mode ≠ .muster → h < 256 → s.store.agrees .entry h rev →
    s.store.present .entry h = true →
    ∃ t, exec (.retireEntry (.fields { index := h, rev })) s = .next t ∧
      ({ s with
          store := s.store.removeSlot .entry h
          graph := s.graph.setEntry h none
          prog := s.prog.setRow h none }.answer 0x43#8 .ok (num1 ((s.store.rev .entry h + 1) % 256))).Settled t ∧
      (s.store.ramErrors = [] → t.Shows .entry)) ∧
  (∀ (s : State) (n : Nat), s.wf = true → s.InRange → s.mode.mode ≠ .muster →
    let linger := min n 60
    let ended (r : ScheduleRow) : Bool := s.now.any fun now => r.isOver now linger
    ∃ t, exec (.setLinger (.fields n)) s = .next t ∧ t.prog.linger = linger ∧
      (∀ h, t.prog.row h = (s.prog.row h).bind fun r => if ended r then none else some r) ∧
      (∀ h r, s.prog.row h = some r → ended r = true → t.store.present .entry h = false ∧ t.graph.entry h = none ∧
        t.store.rev .entry h = (s.store.rev .entry h + 1) % 256 ∧ t.store.isDamaged (.slot .entry h) = false) ∧
      (∀ k i, i < 65536 → (k = .entry → ∀ r, s.prog.row i = some r → ended r = false) →
        t.store.entry k i = s.store.entry k i ∧
        (s.store.isDamaged (.slot k i) = true → t.store.isDamaged (.slot k i) = true) ∧
        (s.store.ramErrors = [] → t.store.isDamaged (.slot k i) = s.store.isDamaged (.slot k i))) ∧
      (∀ h < 256, (∀ r, s.prog.row h = some r → ended r = false) →
        t.store.entryRec h = s.store.entryRec h ∧ t.graph.entry h = s.graph.entry h) ∧
      (s.store.ramErrors = [] → (∃ h r, s.prog.row h = some r ∧ ended r = true) → t.Shows .entry) ∧
      ({ s with
          store := { s.store with dir := t.store.dir, damage := t.store.damage }
          graph := { s.graph with refEntries := t.graph.refEntries }
          prog := t.prog }.answer 0x44#8 (if 60 < n then .adjusted else .ok) [byte linger]).Kept t)

/-- R88 to R90: GET ENTRY answers the stored fields, the state with its minute and the revision; READ PROGRAMME the number of
present entries' rows, the lowest free handle and the linger; LIST ENTRIES, with no error in the RAM, the first qualifying
entries in listing order, at most 8, as many as fit in a payload (R192), and whether more follow.
The byte forms that section 12 leaves open are the model's choice (log 15). -/
def Obligations.ProgrammeReadsAnswer : Prop :=
  (∀ (s : State) (h : Nat) (row : ScheduleRow), h < 256 → s.store.present .entry h = true →
    s.store.isDamaged (.slot .entry h) = false → s.store.readable (Place.slot .entry h).words → s.prog.row h = some row →
    let r := s.store.entryRec h
    exec (.getEntry (.fields h)) s =
      .next ({ s with store := s.store.afterReading (Place.slot .entry h).words }.answer 0x45#8 .ok
        (textBytes r.title ++ opt1 r.venue ++ num3 r.start ++ num2 r.duration ++ num1 r.lead ++ num1 r.audience.code ++
          flag r.highlight ++ opt3 r.cancelled ++ num1 row.state.code ++ opt3 row.since ++
          num1 (s.store.rev .entry h)))) ∧
  (∀ s : State,
    (∀ h < 256, s.store.present .entry h = false → (∀ j < h, s.store.present .entry j = true) →
      exec .readProgramme s = .next (s.answer 0x47#8 .ok
        (num2 s.prog.rows.length ++ num2 h ++ num1 s.prog.linger))) ∧
    ((∀ h < 256, s.store.present .entry h = true) →
      exec .readProgramme s = .next (s.answer 0x47#8 .ok
        (num2 s.prog.rows.length ++ [0xFF#8, 0xFF#8] ++ num1 s.prog.linger)))) ∧
  (∀ (s : State) (minute : Nat) (handle : Option Nat), s.wf = true → s.store.ramErrors = [] → minute ≤ 143999 →
    (∀ h, handle = some h → h ≤ 255) →
    ∃ (list : List (Nat × ScheduleRow)) (k : Nat),
      (∀ h r, (h, r) ∈ list ↔ s.prog.row h = some r ∧ s.store.present .entry h = true ∧
        s.store.isDamaged (.slot .entry h) = false ∧
        (minute < r.start ∨ (r.start = minute ∧ handle.getD 0 ≤ h) ∨ r.state = .running)) ∧
      list.Pairwise (fun p q => p.2.start < q.2.start ∨ (p.2.start = q.2.start ∧ p.1 < q.1)) ∧ k ≤ 8 ∧ k ≤ list.length ∧
      (let element (p : Nat × ScheduleRow) : List Byte :=
          let r := s.store.entryRec p.1
          num1 p.1 ++ textBytes r.title ++ opt1 r.venue ++ num3 r.start ++ num2 r.duration ++ num1 r.lead ++
            num1 r.audience.code ++ flag r.highlight ++ num1 p.2.state.code ++ opt3 p.2.since ++ opt3 r.cancelled ++
            num1 (s.store.rev .entry p.1)
       let shown := (list.take k).map element
       exec (.listEntries (.fields { minute, handle })) s =
          .next (s.answer 0x46#8 .ok (listBytes shown ++ flag (decide (k < list.length)))) ∧
        shown.flatten.length ≤ 198 ∧
        (k < 8 → ∀ p, list[k]? = some p → 198 < shown.flatten.length + (element p).length)))

/-! ### Muster stations and entrances. -/

/-- R94 to R96, R105, R117: an accepted PUT STATION writes station n and target n, copies the settings, and gives a station put onto
an ABSENT slot STANDBY with the STATION notice; an accepted REMOVE STATION clears all of it; both resolve redirection (as
StationControlGivesStates states it), and a lamp line that another station names than before, or none, takes that
station's pattern by R117's table, or steady off; a change of node and a removal abandon a computation of column n (R34, R55; log
17). That an ABSENT station's live state is kept as STANDBY is the model's choice (log 27). PUT and REMOVE ENTRANCE write the
settings and set the decoder to IDLE with its timers at 0; a put restarts the hold counts and leaves the taken levels. With no error
in the RAM the panels that the station and its target concern show them (R157).
The payload items that the rules do not name, and where a tag's DECK line takes the station's node from, are the model's choice (logs
14, 47). -/
def Obligations.StationAndEntranceRequestsAct : Prop :=
  [StationState.standby, .taking, .nearFull, .full, .secured, .notSafe].map lampPattern =
    [(0, 0), (8, 8), (3, 3), (16, 0), (0, 0), (2, 14)] ∧
  (∀ (s : State) (a : PutStation) (r : StationRec), s.wf = true → s.mode.mode = .normal → a.index < 16 →
    s.store.agrees .station a.index a.rev → a.record = some r →
    (s.graph.lock = true → s.graph.stationNode a.index = some a.node) → s.store.present .node a.node = true →
    (∀ l, a.lamp = some l → ∀ k < 16, k ≠ a.index → ∀ q, s.muster.settings k = some q → q.lamp ≠ some l) →
    let n := a.index
    let target : TargetRec := { node := r.node, phrase := r.phrase, kind := .station }
    let st := { s.store with stations := Table.set {} s.store.stations n r }.putSlot .station n
    ∃ t, exec (.putStation (.fields a)) s = .next t ∧
      ({ s with
          store := { st with targets := Table.set {} st.targets n target }.putSlot .target n
          graph := (s.graph.setStation n (some r.node)).setTarget n (some { node := r.node, kind := .station })
          routes := t.routes, muster := t.muster }.answer 0x50#8 (if r.nearFull = a.nearFull then .ok else .adjusted)
        (if r.nearFull = a.nearFull then [] else num1 r.nearFull)).Kept t ∧
      t.muster.settings n = some { capacity := r.capacity, nearFull := r.nearFull, overflow := r.overflow, lamp := r.lamp } ∧
      (s.muster.hasStation n = false → t.muster.live n = {} ∧ t.isPending .station = true) ∧
      (s.muster.hasStation n = true → t.muster.live n = s.muster.live n) ∧
      (∀ k, k ≠ n → t.muster.settings k = s.muster.settings k ∧ t.muster.live k = s.muster.live k) ∧
      (∀ k < 16, t.muster.effectiveOf k = t.muster.resolved k) ∧
      t.muster = { s.muster with
        stationSettings := t.muster.stationSettings, stations := t.muster.stations, effective := t.muster.effective
        lamps := t.muster.lamps } ∧
      s.muster.LampsPointed t.muster ∧
      (s.graph.targetNode n ≠ some r.node → t.routes.col n = .stale) ∧
      (∀ c, s.routes.engine = some c →
        s.graph.targetNode n = none ∨ s.graph.targetNode n = some r.node ∨ c.column ≠ n → t.routes.engine = some c) ∧
      (∀ old, s.QueueInOrder → s.store.ramErrors = [] → s.routes.inFlight n = true → s.graph.targetNode n = some old →
        old ≠ r.node → t.routes.TookNext (s.routes.queue.map QueuedCol.column ++ [n])) ∧
      (s.store.ramErrors = [] → t.Shows (.station n) ∧ t.Shows (.targetName n) ∧
        (∀ k < 16, t.muster.effectiveOf k ≠ s.muster.effectiveOf k → t.Shows (.effective k)) ∧
        ∀ old, s.graph.targetNode n = some old → old ≠ r.node → t.Shows (.targetNode n) ∧ t.Shows (.column n))) ∧
  (∀ (s : State) (n : Nat) (rev : Option Nat), s.wf = true → s.mode.mode = .normal → n < 16 →
    s.store.agrees .station n rev → s.store.present .station n = true → s.graph.lock = false →
    s.graph.screenListings n = 0 →
    ∃ t, exec (.removeStation (.fields { index := n, rev })) s = .next t ∧
      ({ s with
          store := (s.store.removeSlot .station n).removeSlot .target n
          graph := (s.graph.setStation n none).setTarget n none
          routes := t.routes, muster := t.muster }.answer 0x51#8 .ok []).Kept t ∧
      t.muster.settings n = none ∧ t.muster.live n = {} ∧ t.isPending .station = true ∧
      (∀ k, k ≠ n → t.muster.settings k = s.muster.settings k ∧ t.muster.live k = s.muster.live k) ∧
      t.muster = { s.muster with
        stationSettings := t.muster.stationSettings, stations := t.muster.stations, effective := t.muster.effective
        lamps := t.muster.lamps } ∧
      s.muster.LampsPointed t.muster ∧
      (∀ k < 16, t.muster.effectiveOf k = t.muster.resolved k) ∧ t.routes.col n = .empty ∧ t.routes.isQueued n = false ∧
      (∀ c, s.routes.engine = some c → c.column ≠ n → t.routes.engine = some c) ∧
      (s.store.ramErrors = [] → s.routes.inFlight n = true →
        let waiting := s.routes.queue.filter (·.column ≠ n)
        t.routes.TookNext (waiting.map QueuedCol.column) ∧ (waiting = [] → t.isPending .routes = true)) ∧
      (s.store.ramErrors = [] → t.Shows (.station n) ∧
        ∀ k < 16, t.muster.effectiveOf k ≠ s.muster.effectiveOf k → t.Shows (.effective k))) ∧
  (∀ (s : State) (a : PutEntrance) (r : EntranceRec), s.wf = true → s.mode.mode = .normal → a.index < 32 →
    s.store.agrees .entrance a.index a.rev → a.record = some r → s.graph.lock = false →
    let k := a.index
    ∃ t, exec (.putEntrance (.fields a)) s = .next t ∧
      t = { s with
        store := { s.store with entrances := Table.set {} s.store.entrances k r }.putSlot .entrance k
        muster := { s.muster with
          entranceSettings := t.muster.entranceSettings, decoders := t.muster.decoders, beams := t.muster.beams }
        }.answer 0x54#8 .ok [] ∧
      t.muster.entrance k = some r ∧ t.muster.decoder k = { state := .idle, stuckFirst := 0, stuckSecond := 0, clearing := 0 } ∧
      (∀ j, j ≠ k → t.muster.entrance j = s.muster.entrance j ∧ t.muster.decoder j = s.muster.decoder j) ∧
      ∀ i, t.muster.beam i = if i / 2 = k then { s.muster.beam i with hold := 0 } else s.muster.beam i) ∧
  (∀ (s : State) (k : Nat) (rev : Option Nat), s.wf = true → s.mode.mode = .normal → k < 32 →
    s.store.agrees .entrance k rev → s.store.present .entrance k = true → s.graph.lock = false →
    ∃ t, exec (.removeEntrance (.fields { index := k, rev })) s = .next t ∧
      t = { s with
        store := s.store.removeSlot .entrance k
        muster := { s.muster with
          entranceSettings := t.muster.entranceSettings, decoders := t.muster.decoders } }.answer 0x55#8 .ok [] ∧
      t.muster.entrance k = none ∧ t.muster.decoder k = {} ∧
      (∀ j, j ≠ k → t.muster.entrance j = s.muster.entrance j ∧ t.muster.decoder j = s.muster.decoder j))

/-- R105, R107 to R110, R116: SECURE, MARK UNSAFE, REOPEN and SET HEAD COUNT give a PRESENT station the state that the rules state,
with the effects of a state change; SECURE and SET HEAD COUNT in a session, REOPEN to STANDBY in NORMAL and to what the
comparison gives in a session, refused with DAMAGED for a DAMAGED slot (its payload: log 46) and then with MODE for a station in another state. A count
above 1,999 is taken as 1,999 and answered ADJUSTED. In its mode each is refused with RANGE for no station and with ABSENT for an
ABSENT one.
Redirection: a PRESENT station in STANDBY, OPEN or NEAR FULL is its own effective station; for one in FULL, SECURED or UNSAFE it is
the first of the up to three stations that its overflow links reach through PRESENT stations and that is OPEN or NEAR FULL, else the
station itself with ASK CREW. With no error in the RAM the screens assigned to a station whose effective station or marker changes show
it (R157).
The payload items that the rules do not name are the model's choice (log 14). -/
def Obligations.StationControlGivesStates : Prop :=
  (∀ p q c : Nat,
    (p ≤ c → threshold { capacity := p, nearFull := q, overflow := none, lamp := none } c = .full) ∧
    (c < p → p * q ≤ c * 100 → threshold { capacity := p, nearFull := q, overflow := none, lamp := none } c = .nearFull) ∧
    (c < p → c * 100 < p * q → threshold { capacity := p, nearFull := q, overflow := none, lamp := none } c = .taking)) ∧
  (∀ (m : Muster) (n : Nat),
    let takes (o : Nat) : Prop := (m.live o).state = .taking ∨ (m.live o).state = .nearFull
    let reaches (j o : Nat) : Prop := 1 ≤ j ∧ j ≤ 3 ∧ m.reached n j = some o
    let closed : Prop := (m.live n).state = .full ∨ (m.live n).state = .secured ∨ (m.live n).state = .notSafe
    (m.hasStation n = false → m.resolved n = none) ∧
    (m.hasStation n = true → ¬closed → m.resolved n = some { station := n, askCrew := false }) ∧
    (m.hasStation n = true → closed →
      (∀ j o, reaches j o → takes o → (∀ i x, i < j → reaches i x → ¬takes x) →
        m.resolved n = some { station := o, askCrew := false }) ∧
      ((∀ j o, reaches j o → ¬takes o) → m.resolved n = some { station := n, askCrew := true }))) ∧
  (∀ (s : State) (n c : Nat),
    let refused (x : Status) : Prop :=
      (s.mode.mode ≠ .normal → s.Refused (.secure (.fields n)) 0x58 x [] ∧
        s.Refused (.setHeadCount (.fields { station := n, count := c })) 0x5B x []) ∧
      s.Refused (.markUnsafe (.fields n)) 0x59 x [] ∧ s.Refused (.reopen (.fields n)) 0x5A x []
    (16 ≤ n → refused .range) ∧ (n < 16 → s.muster.settings n = none → refused .absent)) ∧
  ∀ (s : State) (n : Nat) (x : StationSettings), s.wf = true → n < 16 → s.muster.settings n = some x →
    let l := s.muster.live n
    let clock := s.time.clock.value
    let redirected (t : State) : Prop := s.store.ramErrors = [] →
      ∀ k < 16, t.muster.effectiveOf k ≠ s.muster.effectiveOf k → t.Shows (.effective k)
    let becomes (c : Instr) (new : StationState) (code : Byte) (payload : List Byte) : Prop :=
      ∃ t, exec c s = .next t ∧ Muster.StateTaken n new clock s.muster t.muster ∧
        (l.state = new → t = s.answer code .ok payload) ∧
        (l.state ≠ new → ({ s with muster := t.muster }.answer code .ok payload).Kept t ∧ t.isPending .station = true ∧
          redirected t)
    (s.mode.mode ≠ .normal → l.state ≠ .notSafe → becomes (.secure (.fields n)) .secured 0x58#8 []) ∧
    (s.mode.mode ≠ .normal → l.state = .notSafe → exec (.secure (.fields n)) s = .next (s.answer 0x58#8 .mode [])) ∧
    becomes (.markUnsafe (.fields n)) .notSafe 0x59#8 [] ∧
    (s.store.isDamaged (.slot .station n) = false →
      (s.mode.mode = .normal → l.state = .notSafe → becomes (.reopen (.fields n)) .standby 0x5A#8 [0#8]) ∧
      (s.mode.mode ≠ .normal → l.state = .notSafe ∨ l.state = .secured →
        becomes (.reopen (.fields n)) (threshold x l.head) 0x5A#8 (num1 (threshold x l.head).code)) ∧
      (l.state ≠ .notSafe → s.mode.mode = .normal ∨ l.state ≠ .secured →
        exec (.reopen (.fields n)) s = .next (s.answer 0x5A#8 .mode []))) ∧
    (s.store.isDamaged (.slot .station n) = true →
      exec (.reopen (.fields n)) s = .next (s.answer 0x5A#8 .damaged (Place.slot .station n).bytes)) ∧
    (∀ c, s.mode.mode ≠ .normal →
      let count := min c 1999
      let m := s.muster.setLive n { l with head := count }
      let new := if l.state = .taking ∨ l.state = .nearFull ∨ l.state = .full then threshold x count else l.state
      ∃ t, exec (.setHeadCount (.fields { station := n, count := c })) s = .next t ∧
        Muster.StateTaken n new clock m t.muster ∧
        ({ s with muster := t.muster }.answer 0x5B#8 (if c ≤ 1999 then .ok else .adjusted)
          (num2 count ++ num1 new.code)).Kept t ∧ redirected t ∧
        (new ≠ l.state → t.isPending .station = true))

/-- R98, R100, R101, R102: a beam's filter takes a level sampled one time more in a row than its choice; the decoder's fourteen
single changes and the crossings they complete, every other change to MUDDLED; MUDDLED left for IDLE with an ambiguous result
at the end of a tick with both beams clear; FAULT entered where a stuck timer reaches 1,920 and left after 128 clear ticks. -/
def Obligations.DecodersFollowTheTable : Prop :=
  (∀ (b : Beam) (choice : Nat) (level : Bool),
    (level = b.blocked → b.sample choice level = { b with hold := 0 }) ∧
    (level ≠ b.blocked → b.hold + 1 ≤ choice → b.sample choice level = { b with hold := b.hold + 1 }) ∧
    (level ≠ b.blocked → choice < b.hold + 1 → b.sample choice level = { blocked := level, hold := 0 })) ∧
  (let rows : List (DecoderState × Change × Change × DecoderState × Option Crossing) := [
      (.idle, some true, none, .outer, none), (.idle, none, some true, .inner, none),
      (.outer, none, some true, .bothIn, none), (.outer, some false, none, .idle, none),
      (.bothIn, some false, none, .clearingIn, none), (.bothIn, none, some false, .outer, none),
      (.clearingIn, none, some false, .idle, some .inward), (.clearingIn, some true, none, .bothIn, none),
      (.inner, some true, none, .bothOut, none), (.inner, none, some false, .idle, none),
      (.bothOut, none, some false, .clearingOut, none), (.bothOut, some false, none, .inner, none),
      (.clearingOut, some false, none, .idle, some .outward), (.clearingOut, none, some true, .bothOut, none)]
   ∀ (d : DecoderState) (outer inner : Change), d ≠ .fault →
    (∀ goal cross, (d, outer, inner, goal, cross) ∈ rows → d.next outer inner = (goal, cross)) ∧
    (outer = none → inner = none → d.next outer inner = (d, none)) ∧
    ((∀ goal cross, (d, outer, inner, goal, cross) ∉ rows) → ¬(outer = none ∧ inner = none) →
      d.next outer inner = (.muddled, none))) ∧
  (∀ (swapped first second first' second' : Bool) (d : Decoder) (h1 h2 h1' h2' : Nat),
    let x := d.tick swapped { blocked := first, hold := h1 } { blocked := second, hold := h2 }
      { blocked := first', hold := h1' } { blocked := second', hold := h2' }
    let change (before after : Bool) : Change := if before = after then none else some after
    let p := if swapped then d.state.next (change second second') (change first first')
      else d.state.next (change first first') (change second second')
    let clear := first' = false ∧ second' = false
    let stuck (blocked : Bool) (n : Nat) : Nat := if blocked then min 65535 (n + 1) else 0
    let fault := (first' = true ∧ d.stuckFirst + 1 = 1920) ∨ (second' = true ∧ d.stuckSecond + 1 = 1920)
    d.stuckFirst ≤ 65535 → d.stuckSecond ≤ 65535 →
    x.decoder.stuckFirst = stuck first' d.stuckFirst ∧ x.decoder.stuckSecond = stuck second' d.stuckSecond ∧
    (d.state = .fault → x.crossing = none ∧ x.faulted = false ∧
      (¬clear → x.decoder.state = .fault ∧ x.decoder.clearing = 0) ∧
      (clear → d.clearing + 1 < 128 → x.decoder.state = .fault ∧ x.decoder.clearing = d.clearing + 1) ∧
      (clear → 128 ≤ d.clearing + 1 → x.decoder.state = .idle ∧ x.cleared = true)) ∧
    (d.state ≠ .fault → fault → x.decoder.state = .fault ∧ x.faulted = true ∧ x.crossing = none) ∧
    (d.state ≠ .fault → ¬fault → x.faulted = false ∧
      (p.1 = .muddled → clear → x.decoder.state = .idle ∧ x.crossing = some .ambiguous) ∧
      (p.1 = .muddled → ¬clear → x.decoder.state = .muddled ∧ x.crossing = none) ∧
      (p.1 ≠ .muddled → x.decoder.state = p.1 ∧ x.crossing = p.2)))

/-- R98 to R104, R107, R115, R117: TAKEN_CHANGE, STUCK_BEAM_FAULT and FAULT_CLEARED are the ticks of one entrance at which that
happens (log 5): its filters and decoder move as at any tick, a FAULT sets the ENTRANCE notice, and in a session a crossing counts
at the PRESENT station that the entrance names, within 0..1,999; where the count is written the comparison follows, and a state
change sets the STATION notice; with no error in the RAM the screens assigned to a station whose effective station or marker
changes show it (R157). LAMP_PHASE_TURN is the 16 Hz tick at which a flashing line's phase turns. -/
def Obligations.EntranceEventsCount : Prop :=
  (∀ (s : State) (k : Nat) (a b : Bool) (c : Instr), s.wf = true → k < 32 →
    let x := s.muster.entranceTick k a b
    (c = .takenChange k a b ∧ x.taken = true) ∨ (c = .stuckBeamFault k a b ∧ x.faulted = true) ∨
      (c = .faultCleared k a b ∧ x.cleared = true) →
    ∃ t, exec c s = .next t ∧ ({ s with muster := t.muster }).Kept t ∧
      t.muster.decoder k = x.decoder ∧ t.muster.beam (2 * k) = x.first ∧ t.muster.beam (2 * k + 1) = x.second ∧
      (∀ j, j ≠ k → t.muster.decoder j = s.muster.decoder j ∧ t.muster.beam (2 * j) = s.muster.beam (2 * j) ∧
        t.muster.beam (2 * j + 1) = s.muster.beam (2 * j + 1)) ∧
      (x.faulted = true → t.isPending .entrance = true) ∧ t.muster.roster = s.muster.roster ∧
      (s.store.ramErrors = [] → ∀ n < 16, t.muster.effectiveOf n ≠ s.muster.effectiveOf n → t.Shows (.effective n)) ∧
      t.muster.session = s.muster.session ∧ t.muster.roll = s.muster.roll ∧
      (s.mode.mode = .normal ∨ x.crossing = none ∨ (s.muster.entrance k).bind EntranceRec.station = none →
        ∀ n, t.muster.live n = s.muster.live n) ∧
      (∀ n, (s.muster.entrance k).bind EntranceRec.station = some n → s.mode.mode ≠ .normal →
        (∀ j, j ≠ n → t.muster.live j = s.muster.live j) ∧ (s.muster.hasStation n = false → t.muster.live n = s.muster.live n) ∧
        (∀ r cross, s.muster.settings n = some r → x.crossing = some cross →
          let l := s.muster.live n
          let v := t.muster.live n
          let counted := l.counted s.time.clock.value cross
          let new := if l.state = .taking ∨ l.state = .nearFull ∨ l.state = .full then threshold r counted.head else l.state
          let writes := cross = .inward ∨ (cross = .outward ∧ l.head ≠ 0)
          (¬writes → v = counted) ∧
          (writes → v = { counted with
              state := new
              fullTime := if new = .full ∧ l.state ≠ .full ∧ l.fullTime = .notYet then .taken s.time.clock.value
                else l.fullTime } ∧
            (new ≠ l.state → t.isPending .station = true))))) ∧
  (∀ (clock : Option ShipTime) (l : StationLive),
    l.counted clock .inward = { l with
      head := min 1999 (l.head + 1), firstArrival := if l.firstArrival = .notYet then .taken clock else l.firstArrival } ∧
    l.counted clock .outward = { l with
      head := l.head - 1, unmatched := if l.head = 0 then max l.unmatched (min 255 (l.unmatched + 1)) else l.unmatched } ∧
    l.counted clock .ambiguous = { l with ambiguous := max l.ambiguous (min 255 (l.ambiguous + 1)) }) ∧
  (∀ (s : State) (l : Nat),
    let p := s.muster.lamp l
    (l < 16 → p.fresh = false → p.onCount ≠ 0 → p.offCount ≠ 0 → p.counter ≤ 1 →
      exec (.lampPhaseTurn l) s = exec .tick16Hz s ∧
      (s.wf = true → s.time.due16 = true → ∃ t, exec (.lampPhaseTurn l) s = .next t ∧
        t = { s with time := { s.time with due16 := false }, muster := { s.muster with lamps := t.muster.lamps } } ∧
        t.muster.lamp l = { p with
          phaseOn := !p.phaseOn, line := !p.phaseOn, counter := if p.phaseOn then p.offCount else p.onCount })) ∧
    (16 ≤ l ∨ p.fresh = true ∨ p.onCount = 0 ∨ p.offCount = 0 ∨ 2 ≤ p.counter → exec (.lampPhaseTurn l) s = .next s))

/-- R97, R106, R114, R178: GET STATION and GET ENTRANCE answer the stored fields of a PRESENT, undamaged slot whose words hold no
double-bit error; READ STATION, READ ENTRANCE, READ ROLL and the three link reads answer from the part's own registers, read no
word and change nothing. The expected persons of a station are the berths of the roster entries that name it, and its assistance
count the number of those with assist yes. How a time of a refresh is carried is free (log 11).
The byte forms that section 12 leaves open are the model's choice (logs 15 and 39). -/
def Obligations.StationAndLinkReadsAnswer : Prop :=
  (∀ (m : Muster) (n : Nat), Table.wf none m.roster = true → (∀ c, m.rosterEntry c ≠ none → c < 512) →
    let naming : List RosterEntry := (List.range 512).filterMap fun c => (m.rosterEntry c).filter fun r => r.station = n
    m.expected n = (naming.map fun r => r.berths).sum ∧ m.assistance n = naming.countP fun r => r.assist) ∧
  ∀ s : State,
    (∀ n < 16, s.store.present .station n = true → s.store.isDamaged (.slot .station n) = false →
      s.store.readable (Place.slot .station n).words →
      let r : StationRec := Table.get {} s.store.stations n
      exec (.getStation (.fields n)) s =
        .next ({ s with store := s.store.afterReading (Place.slot .station n).words }.answer 0x52#8 .ok
          (num1 r.node ++ num2 r.capacity ++ num1 r.nearFull ++ opt1 r.overflow ++ opt1 r.lamp ++ num1 r.phrase ++
            num1 (s.store.rev .station n)))) ∧
    (∀ k < 32, s.store.present .entrance k = true → s.store.isDamaged (.slot .entrance k) = false →
      s.store.readable (Place.slot .entrance k).words →
      let r : EntranceRec := Table.get {} s.store.entrances k
      exec (.getEntrance (.fields k)) s =
        .next ({ s with store := s.store.afterReading (Place.slot .entrance k).words }.answer 0x56#8 .ok
          (opt1 r.station ++ num1 r.filter ++ flag r.swapped ++ num1 (s.store.rev .entrance k)))) ∧
    (∀ n < 16,
      let figures := num2 (s.muster.expected n) ++ num2 (s.muster.assistance n)
      let l := s.muster.live n
      (s.muster.hasStation n = false → exec (.readStation (.fields n)) s = .next (s.answer 0x53#8 .absent figures)) ∧
      (∀ e, s.muster.hasStation n = true → s.muster.effectiveOf n = some e →
        exec (.readStation (.fields n)) s = .next (s.answer 0x53#8 .ok
          (num1 l.state.code ++ num1 e.station ++ flag e.askCrew ++ num2 l.head ++ num1 l.unmatched ++ num1 l.ambiguous ++
            figures ++ optTimeBytes l.firstArrival.time ++ optTimeBytes l.fullTime.time ++
            flag (s.store.isDamaged (.slot .station n)))))) ∧
    (∀ k < 32,
      let d := s.muster.decoder k
      let levels := flag (s.muster.beam (2 * k)).blocked ++ flag (s.muster.beam (2 * k + 1)).blocked
      let exchanged := flag (s.muster.beam (2 * k + 1)).blocked ++ flag (s.muster.beam (2 * k)).blocked
      (s.muster.entrance k = none → exec (.readEntrance (.fields k)) s = .next (s.answer 0x57#8 .ok (levels ++ [0#8]))) ∧
      (∀ r, s.muster.entrance k = some r → exec (.readEntrance (.fields k)) s = .next (s.answer 0x57#8 .ok
        (if r.swapped then exchanged ++ num1 d.state.code ++ num2 d.stuckSecond ++ num2 d.stuckFirst
         else levels ++ num1 d.state.code ++ num2 d.stuckFirst ++ num2 d.stuckSecond)))) ∧
    (∀ n < 16,
      (s.muster.roll = none → exec (.readRoll (.fields n)) s = .next (s.answer 0x5C#8 .ok [0#8])) ∧
      (∀ roll, s.muster.roll = some roll →
        (Table.get none roll.rows n = none →
          exec (.readRoll (.fields n)) s = .next (s.answer 0x5C#8 .ok ([1#8] ++ num1 roll.kind.code ++ [0#8]))) ∧
        (∀ r, Table.get none roll.rows n = some r →
          exec (.readRoll (.fields n)) s = .next (s.answer 0x5C#8 .ok
            ([1#8] ++ num1 roll.kind.code ++ [1#8] ++ num1 r.state.code ++ num2 r.head ++ num2 r.expected ++
              num2 r.assistance ++ num1 r.unmatched ++ num1 r.ambiguous ++ optTimeBytes r.firstArrival ++
              optTimeBytes r.fullTime))))) ∧
    (let place (n : Nat) (list : List Nat) : Option Nat := (list.idxOf? n).map (· + 1)
     (∀ n < 48,
      let l := s.scr.link n
      exec (.readScreenLink (.fields n)) s = .next (s.answer 0x80#8 .ok
        (num1 l.presence.code ++ flag l.silent ++ flag l.paused ++ opt3 l.acked ++ num2 (s.composer.screen n).version ++
          num1 l.attempts ++ num1 l.missedPolls ++ opt1 (place n s.scr.sendQueue) ++ opt1 (place n s.scr.silent)))) ∧
     (∀ n < 512,
      let l := s.tag.link n
      exec (.readTagLink (.fields n)) s = .next (s.answer 0x81#8 .ok
        (num1 l.service.code ++ num2 l.shown ++ num2 (s.composer.tag n).version ++ flag l.dirty ++ num1 l.missed ++
          groupBytes (l.refresh.map fun r : Refresh => num2 r.version ++ num3 (Config.linkTime r.acceptedAt).toNat ++
            num3 (Config.linkTime r.pollAt).toNat) ++ opt2 (place n s.tag.routine) ++
          flag (s.tag.sweep.any fun w : TagSweep => w.list.contains n)))) ∧
     exec .readLinkQueues s = .next (s.answer 0x82#8 .ok
      (num1 s.scr.sendQueue.length ++ listBytes ((s.scr.sendQueue.take 8).map num1) ++ listBytes (s.scr.silent.map num1) ++
        num2 s.tag.routine.length ++ listBytes ((s.tag.routine.take 8).map num2) ++ flag s.tag.suspended ++
        opt2 (s.tag.sweep.map TagSweep.walk) ++ num2 ((s.tag.sweep.map fun w : TagSweep => w.list.length).getD 0) ++
        listBytes (s.tag.inRefresh.map num2))))

/-! ### Cabins. -/

/-- R119 to R123, R126, R132, R155, R158, R170: an accepted PUT CABIN, CHANGE CABIN, SET SERVICE or REMOVE CABIN writes the record,
the index entry, the summary and the roster entry that it names, raises the revision and answers it; with no error in the RAM its
tag is composed, and no other panel. A removal takes the cabin from the service-change list and the routine queue, which it joins
again where its blank content is new.
The payload items that the rules do not name, and where a tag's DECK line takes the station's node from, are the model's choice
(logs 14, 47). -/
def Obligations.CabinWritesAct : Prop :=
  let composes (n : Nat) (s t : State) : Prop :=
    PanelContent.Composed (t.tagShown n) (s.composer.tag n) (t.composer.tag n) ∧
    (∀ m, m ≠ n → t.composer.tag m = s.composer.tag m) ∧ t.composer.screens = s.composer.screens
  (∀ (s : State) (a : PutCabin) (r : CabinRec), s.mode.mode = .normal → a.index < 512 → s.store.agrees .cabin a.index a.rev →
    a.record = some r → (∀ n m, s.now = some n → a.greeting.expiry = some m → n < m) → s.store.present .node a.node = true →
    let n := a.index
    ∃ t, exec (.putCabin (.fields a)) s = .next t ∧
      ({ s with
          store := { s.store with cabins := Table.set {} s.store.cabins n r }.putSlot .cabin n
          graph := s.graph.setCabin n (some r.node)
          cabinTable := s.cabinTable.setSummary n (some {
            service := r.service, bank := r.bank, expiry := r.greeting.bind Greeting.expiry })
          muster := s.muster.setRoster n (some { station := r.station, berths := r.berths, assist := r.assist }) }.answer
        0x60#8 .ok (num1 ((s.store.rev .cabin n + 1) % 256))).Settled t ∧
      (s.wf = true → s.store.ramErrors = [] → composes n s t)) ∧
  (∀ (s : State) (a : ChangeCabin), s.mode.mode ≠ .muster → (a.rosterGroup = true → s.mode.mode = .normal) →
    a.index < 512 → s.store.agrees .cabin a.index a.rev → s.store.present .cabin a.index = true →
    s.store.isDamaged (.slot .cabin a.index) = false → a.valid = true →
    (∀ g n m, a.greeting = some g → s.now = some n → g.expiry = some m → n < m) →
    (∀ x, a.node = some x → s.store.present .node x = true) →
    let n := a.index
    let words : List Nat :=
      (if a.namesHead then [4136 + n * 28, 4136 + n * 28 + 1] else []) ++
      (if a.occupant.isSome then (List.range 8).map fun j => 4136 + n * 28 + (2 + j) else []) ++
      (if a.greeting.isSome then (List.range 18).map fun j => 4136 + n * 28 + (10 + j) else [])
    s.store.readable words →
    let st := s.store.afterReading words
    let r := a.apply (st.cabinRec n)
    ∃ t, exec (.changeCabin (.fields a)) s = .next t ∧
      ({ s with
          store := { st with cabins := Table.set {} st.cabins n r }.changeSlot .cabin n words
          graph := if a.node.isSome then s.graph.setCabin n (some r.node) else s.graph
          cabinTable := if a.bank.isSome || a.service.isSome || a.greeting.isSome then
              s.cabinTable.setSummary n (some {
                service := r.service, bank := r.bank, expiry := r.greeting.bind Greeting.expiry })
            else s.cabinTable
          muster := if a.namesRoster then
              s.muster.setRoster n (some { station := r.station, berths := r.berths, assist := r.assist })
            else s.muster }.answer
        0x61#8 .ok (num1 ((s.store.rev .cabin n + 1) % 256))).Settled t ∧
      (s.wf = true → s.store.ramErrors = [] → composes n s t)) ∧
  (∀ (s : State) (n : Nat) (rev : Option Nat) (v : Service), s.mode.mode ≠ .muster → n < 512 → s.store.agrees .cabin n rev →
    s.store.present .cabin n = true → s.store.isDamaged (.slot .cabin n) = false →
    let words := [4136 + n * 28, 4136 + n * 28 + 1]
    s.store.readable words →
    let st := s.store.afterReading words
    ∃ t, exec (.setService (.fields { index := n, rev, service := v.code })) s = .next t ∧
      ({ s with
          store := { st with cabins := Table.set {} st.cabins n { st.cabinRec n with service := v } }.changeSlot .cabin n words
          cabinTable := s.cabinTable.setSummary n ((s.cabinTable.summary n).map fun m : Summary => { m with service := v })
          }.answer 0x62#8 .ok (num1 ((s.store.rev .cabin n + 1) % 256))).Settled t ∧
      (s.wf = true → s.store.ramErrors = [] → composes n s t)) ∧
  (∀ (s : State) (n : Nat) (rev : Option Nat), s.wf = true → s.mode.mode = .normal → n < 512 → s.store.agrees .cabin n rev →
    s.store.present .cabin n = true →
    ∃ t, exec (.removeCabin (.fields { index := n, rev })) s = .next t ∧
      ({ s with
          store := s.store.removeSlot .cabin n
          graph := s.graph.setCabin n none
          cabinTable := { s.cabinTable.setSummary n none with
            service := s.cabinTable.service.filter fun p => p.cabin ≠ n }
          muster := s.muster.setRoster n none
          tag := { s.tag with routine := s.tag.routine.filter (· ≠ n) } }.answer
        0x63#8 .ok (num1 ((s.store.rev .cabin n + 1) % 256))).Settled t ∧
      (let l := s.tag.link n
       let joins := (s.composer.tag n).content ≠ [] ∧ l.service = .inService ∧ l.refresh = none ∧
         ∀ v, s.tag.transfer ≠ some (.send n v)
       (joins → t.tag.routine = s.tag.routine.filter (· ≠ n) ++ [n]) ∧
       (¬joins → t.tag.routine = s.tag.routine.filter (· ≠ n))) ∧
      composes n s t)

/-- R124, R125, R130, R192: GET CABIN answers the fields, whole, or with the greeting withheld where they pass 200 bytes (log 16), or
the greeting alone; FIND CABIN, with no error in the RAM, the lowest PRESENT, undamaged cabin with the label; COLLECT SERVICE
CHANGES the oldest 16 entries, which leave the list.
The byte forms that section 12 leaves open are the model's choice (log 15). -/
def Obligations.CabinReadsAnswer : Prop :=
  ∀ s : State,
    (∀ n < 512, s.store.present .cabin n = true → s.store.isDamaged (.slot .cabin n) = false →
      s.store.readable (Place.slot .cabin n).words →
      let r := s.store.cabinRec n
      let u : State := { s with store := s.store.afterReading (Place.slot .cabin n).words }
      let head := textBytes r.label ++ num1 r.node ++ num1 r.station ++ num1 r.berths ++ flag r.assist ++ num1 r.bank ++
        num1 r.service.code ++ optTextBytes r.occupant
      let expiry := opt3 (r.greeting.bind Greeting.expiry)
      let rev := num1 (s.store.rev .cabin n)
      let greeting := optTextBytes (r.greeting.map Greeting.text)
      exec (.getCabin (.fields { index := n, part := some 1 })) s = .next (u.answer 0x64#8 .ok (greeting ++ expiry ++ rev)) ∧
      ((head ++ greeting ++ expiry ++ rev).length ≤ 200 →
        exec (.getCabin (.fields { index := n, part := none })) s =
          .next (u.answer 0x64#8 .ok (head ++ greeting ++ expiry ++ rev))) ∧
      (200 < (head ++ greeting ++ expiry ++ rev).length →
        exec (.getCabin (.fields { index := n, part := none })) s =
          .next (u.answer 0x64#8 .ok (head ++ [0#8] ++ expiry ++ rev ++ [1#8])))) ∧
    (∀ label : Text, 1 ≤ label.length → label.length ≤ 6 → 0#16 ∉ label → s.store.ramErrors = [] →
      let bears (n : Nat) : Prop := s.store.present .cabin n = true ∧ s.store.isDamaged (.slot .cabin n) = false ∧
        (s.store.cabinRec n).label = label
      (∀ n < 512, bears n → (∀ j < n, ¬bears j) → exec (.findCabin (.fields label)) s = .next (s.answer 0x65#8 .ok
        (num2 n ++ textBytes label ++ num1 (s.store.cabinRec n).station ++ num1 (s.store.rev .cabin n)))) ∧
      ((∀ n < 512, ¬bears n) → exec (.findCabin (.fields label)) s = .next (s.answer 0x65#8 .absent []))) ∧
    (let list := s.cabinTable.service
     exec .collectServiceChanges s =
      .next ({ s with cabinTable := { s.cabinTable with service := list.drop 16 } }.answer 0x66#8 .ok
        (listBytes ((list.take 16).map fun p : ServiceChange => num2 p.cabin ++ num1 p.service.code) ++
          num2 (list.length - 16))))

/-! ### Operating modes. -/

/-- R112 to R114, R134, R138 to R142, R144: in their modes START DRILL, START MUSTER, END DRILL and END MUSTER change the mode by
a mode change event with cause HOST and answer the mode and the change count; the event opens, carries on or closes the session,
marks every present column STALE and overtakes a computation in flight (R48, R49, R54), starts or stops the tag sweep (R176), turns a
due reply into REFUSED-MUSTER in DRILL and MUSTER (R167), and composes every panel, shown here with no error in the RAM (R151 to R155).
Elsewhere they are refused with MODE and the mode as it stands. READ MODE answers the mode's own fields.
The payload items that the rules do not name, and where a tag's DECK line takes the station's node from, are the model's choice
(logs 14, 47). -/
def Obligations.ModeRequestsChangeTheMode : Prop :=
  ∀ s : State, s.wf = true → s.InSession →
    let event (code : Byte) (new : Mode) (c : Instr) (muster : Muster → Prop) : Prop := ∃ t, exec c s = .next t ∧
      t.mode = { s.mode with mode := new, changeCount := (s.mode.changeCount + 1) % 65536, lastCause := .host } ∧
      t.isPending .mode = true ∧ muster t.muster ∧ s.store.Kept t.store ∧ t.graph = s.graph ∧ t.time = s.time ∧
      t.prog = s.prog ∧ t.cabinTable = s.cabinTable ∧ t.muster.roster = s.muster.roster ∧ State.ModeTaken new s t ∧
      t.port.buffer = .working { status := .ok, code, payload := num1 new.code ++ num2 t.mode.changeCount }
    let opened (kind : SessionKind) (m : Muster) : Prop := m.session = some kind ∧ m.roll = none ∧ ∀ n < 16,
      let l := s.muster.live n
      let v := m.live n
      v.head = 0 ∧ v.unmatched = 0 ∧ v.ambiguous = 0 ∧ v.firstArrival = .notYet ∧
        (l.state ≠ .standby → v.state = l.state) ∧
        (∀ x, s.muster.settings n = some x → l.state = .standby → v.state = threshold x 0 ∧
          (x.capacity = 0 → v.fullTime = .taken s.time.clock.value) ∧ (0 < x.capacity → v.fullTime = .notYet))
    let closed (m : Muster) : Prop := m.session = none ∧
      (∃ kind rows, s.muster.session = some kind ∧ m.roll = some { kind, rows } ∧ ∀ n < 16,
        let l := s.muster.live n
        Table.get none rows n = if s.muster.hasStation n then some {
            state := l.state, head := l.head, expected := s.muster.expected n, assistance := s.muster.assistance n
            unmatched := l.unmatched, ambiguous := l.ambiguous, firstArrival := l.firstArrival.time
            fullTime := l.fullTime.time } else none) ∧
      ∀ n < 16, s.muster.hasStation n = true → (s.muster.live n).state ≠ .notSafe →
        m.live n = { s.muster.live n with state := .standby }
    let refused (code : Byte) (c : Instr) (payload : List Byte) : Prop := exec c s = .next (s.answer code .mode payload)
    (s.mode.mode = .normal → event 0x70#8 .drill .startDrill (opened .drill)) ∧
    (s.mode.mode ≠ .normal → refused 0x70#8 .startDrill (num1 s.mode.mode.code)) ∧
    (s.mode.mode = .drill → event 0x71#8 .normal .endDrill closed) ∧
    (s.mode.mode ≠ .drill → refused 0x71#8 .endDrill (num1 s.mode.mode.code)) ∧
    (s.mode.mode = .normal → event 0x72#8 .muster .startMuster (opened .muster)) ∧
    (s.mode.mode = .drill → event 0x72#8 .muster .startMuster fun m => m = { s.muster with session := some .muster }) ∧
    (s.mode.mode = .muster → refused 0x72#8 .startMuster (num1 s.mode.mode.code)) ∧
    (s.mode.mode = .muster → s.mode.filter.state = .released → event 0x73#8 .normal .endMuster closed) ∧
    (s.mode.mode ≠ .muster ∨ s.mode.filter.state ≠ .released →
      refused 0x73#8 .endMuster (num1 s.mode.mode.code ++ num1 s.mode.filter.state.code)) ∧
    exec .readMode s = .next (s.answer 0x74#8 .ok (num1 s.mode.mode.code ++ num1 s.mode.filter.state.code ++
      num1 s.mode.filter.hold ++ num2 s.mode.changeCount ++ num1 s.mode.lastCause.code))

/-- R135 to R137: the alarm filter takes a level sampled 33 times in a row, and while SETTLING settles there; a taken assertion,
or settling ASSERTED, makes the mode MUSTER with cause ALARM, by a mode change event (R48, R142, R167, R176), unless it is; a taken
release and settling RELEASED change no mode. TAKEN_ASSERTION, TAKEN_RELEASE and FILTER_SETTLES are those ticks (log 5); where a
tag's DECK line takes the station's node from is the model's choice (log 47). -/
def Obligations.TheAlarmMakesTheMuster : Prop :=
  (∀ (f : AlarmFilter) (level : Bool),
    (∀ taken : Bool, f.state = (if taken then .asserted else .released) →
      (level = taken → f.sample level = { f with hold := 0 }) ∧
      (level ≠ taken → f.hold + 1 ≤ 32 → f.sample level = { f with hold := f.hold + 1 }) ∧
      (level ≠ taken → 32 < f.hold + 1 →
        f.sample level = { state := if level then .asserted else .released, hold := 0 })) ∧
    (∀ candidate, f.state = .settling candidate →
      (candidate ≠ some level → f.sample level = { state := .settling (some level), hold := 1 }) ∧
      (candidate = some level → f.hold + 1 < 33 → f.sample level = { f with hold := f.hold + 1 }) ∧
      (candidate = some level → 33 ≤ f.hold + 1 →
        f.sample level = { state := if level then .asserted else .released, hold := 0 }))) ∧
  (∀ s : State, s.wf = true → s.InSession → 32 ≤ s.mode.filter.hold →
    let asserted (c : Instr) : Prop :=
      (s.mode.mode = .muster → exec c s = .next { s with mode := { s.mode with filter := { state := .asserted, hold := 0 } } }) ∧
      (s.mode.mode ≠ .muster → ∃ t, exec c s = .next t ∧
        t.mode = { mode := .muster, changeCount := (s.mode.changeCount + 1) % 65536, lastCause := .alarm
                   filter := { state := .asserted, hold := 0 } } ∧
        t.isPending .mode = true ∧ t.muster.session = some .muster ∧ State.ModeTaken .muster s t ∧
        s.store.Kept t.store ∧ t.graph = s.graph ∧ t.time = s.time ∧ t.prog = s.prog ∧ t.cabinTable = s.cabinTable ∧ t.port.buffer = s.port.buffer)
    let released (c : Instr) : Prop :=
      exec c s = .next { s with mode := { s.mode with filter := { state := .released, hold := 0 } } }
    (s.mode.filter.state = .released → asserted .takenAssertion) ∧
    (s.mode.filter.state = .asserted → released .takenRelease) ∧
    (s.mode.filter.state = .settling (some true) → asserted .filterSettles) ∧
    (s.mode.filter.state = .settling (some false) → released .filterSettles))

/-! ### Screens and phrases. -/

/-- R146 to R148, R151 to R154, R158: an accepted PUT SCREEN writes the record and the index entry, tells the Panel Link presence and
kind, ends a pause and composes the screen; an accepted REMOVE SCREEN clears them and composes the blank content; GET SCREEN
answers the fields. With no error in the RAM the screen put shows its time line, its target lines and its programme lines, the
version rises by one exactly where the content differs, and no other panel is composed; of the channel only n's link record changes,
n's place in the send queue, which it joins where it is waiting, and n's in the kiosk rotation. -/
def Obligations.ScreenRequestsAct : Prop :=
  (∀ (s : State) (a : PutScreen) (r : ScreenRec), s.wf = true → s.mode.mode = .normal → a.index < 48 →
    s.store.agrees .screen a.index a.rev → a.record = some r → s.store.present .node a.node = true →
    (∀ x ∈ a.targets, s.store.present .target x = true) →
    let n := a.index
    ∃ t, exec (.putScreen (.fields a)) s = .next t ∧
      ({ s with
          store := { s.store with screens := Table.set {} s.store.screens n r }.putSlot .screen n
          graph := s.graph.setScreen n (some { node := r.node, targets := r.targets })
          scr := t.scr }.answer 0x78#8 .ok (num1 ((s.store.rev .screen n + 1) % 256))).Kept t ∧
      (let p : ScreenPresence := if r.kind = .kiosk then .kiosk else .wall
       t.scr.link n = { s.scr.link n with presence := p, paused := false } ∧
       (∀ m, m ≠ n → t.scr.link m = s.scr.link m ∨ t.scr.link m = { s.scr.link m with paused := true }) ∧
       t.scr = { s.scr with
         links := t.scr.links, sendQueue := t.scr.sendQueue, kioskDue := t.scr.kioskDue, probeDue := t.scr.probeDue } ∧
       (s.store.ramErrors = [] →
         s.scr.Told n p (s.composer.screen n).version (t.composer.screen n).version t.scr)) ∧
      (s.store.ramErrors = [] →
        (∃ f, t.ScreenShows n f ∧ PanelContent.Composed f (s.composer.screen n) (t.composer.screen n)) ∧
        (∀ m, m ≠ n → t.composer.screen m = s.composer.screen m) ∧ t.composer.tags = s.composer.tags)) ∧
  (∀ (s : State) (n : Nat) (rev : Option Nat), s.wf = true → s.mode.mode = .normal → n < 48 →
    s.store.agrees .screen n rev → s.store.present .screen n = true →
    ∃ t, exec (.removeScreen (.fields { index := n, rev })) s = .next t ∧
      t = { s with
        store := s.store.removeSlot .screen n
        graph := s.graph.setScreen n none
        composer := t.composer, scr := t.scr }.answer 0x79#8 .ok [] ∧
      (t.composer.screen n).content = [] ∧
      (t.composer.screen n).version = (if (s.composer.screen n).content = [] then (s.composer.screen n).version
        else ((s.composer.screen n).version + 1) % 65536) ∧
      (∀ m, m ≠ n → t.composer.screen m = s.composer.screen m) ∧ t.composer.tags = s.composer.tags ∧
      s.scr.Told n .absent (s.composer.screen n).version (t.composer.screen n).version t.scr) ∧
  (∀ (s : State) (n : Nat), n < 48 → s.store.present .screen n = true → s.store.isDamaged (.slot .screen n) = false →
    s.store.readable (Place.slot .screen n).words →
    let r := s.store.screenRec n
    exec (.getScreen (.fields n)) s =
      .next ({ s with store := s.store.afterReading (Place.slot .screen n).words }.answer 0x7A#8 .ok
        (num1 r.node ++ num1 r.kind.code ++ num1 r.bank ++ listBytes (r.targets.map num1) ++ num1 r.filter.code ++
          num1 r.lines ++ opt1 r.station ++ flag r.beacon ++ num1 (s.store.rev .screen n))))

/-- R132, R150 to R155, R158, R160, R192: READ SCREEN CONTENT answers presence, DAMAGED flag, version and number of lines, and as many
whole lines from the first asked for as fit in 200 bytes; PUT PHRASE writes a loadable phrase of 1..48 characters; GET PHRASE
answers the ROM's text, which is free (log 10), or the stored text with its revision. With no error in the RAM the panels of the phrase's
bank show it after a PUT PHRASE (R157). With no error in the RAM a composition of a
screen or a tag makes its content the frame that it shows, raises the version by one exactly where that frame differs, and
changes no other panel; a damaged screen is not composed. Two frames are the same where they agree line by line and item by item; two
phrase items where their numbers and their resolved texts agree, and any other two items where they are equal. The bytes of the presence and the DAMAGED flag are the model's choice (log 15),
as are the payload items that the rules do not name (log 14) and where a tag's DECK line takes the station's node from (log 47). -/
def Obligations.ContentAndPhrasesAnswer : Prop :=
  (∀ (s : State) (n : Nat) (first : Option Nat), n < 48 → (∀ f, first = some f → f ≤ 11) →
    let c := s.composer.screen n
    let lines := (c.content.drop (first.getD 0)).map (lineBytes false)
    ∃ k ≤ lines.length,
      exec (.readScreenContent (.fields { index := n, first })) s = .next (s.answer 0x7B#8 .ok
        (num1 (presenceCode (s.store.present .screen n)) ++ flag (s.store.isDamaged (.slot .screen n)) ++ num2 c.version ++
          num1 c.content.length ++ listBytes (lines.take k))) ∧
      (lines.take k).flatten.length ≤ 194 ∧ (k < lines.length → 194 < (lines.take (k + 1)).flatten.length)) ∧
  (∀ (s : State) (b p : Nat) (rev : Option Nat) (text : Text), s.mode.mode ≠ .muster → b < 4 → 16 ≤ p → p < 128 →
    let i := b * 256 + p
    s.store.agrees .phrase i rev → 1 ≤ text.length → text.length ≤ 48 → 0#16 ∉ text →
    ∃ t, exec (.putPhrase (.fields { bank := b, phrase := p, rev, text })) s = .next t ∧
      ({ s with store := { s.store with phrases := Table.set [] s.store.phrases i text }.putSlot .phrase i }.answer 0x7C#8 .ok
        (num1 ((s.store.rev .phrase i + 1) % 256))).Settled t ∧
      (s.wf = true → s.store.ramErrors = [] → t.Shows (.bank b))) ∧
  (∀ (s : State) (b p : Nat), b < 4 → p < 16 →
    exec (.getPhrase (.fields { bank := b, phrase := p })) s = .next (s.answer 0x7D#8 .ok (textBytes (Config.romText b p)))) ∧
  (∀ (s : State) (b p : Nat), b < 4 → 16 ≤ p → p < 128 →
    let i := b * 256 + p
    (s.store.present .phrase i = false → exec (.getPhrase (.fields { bank := b, phrase := p })) s =
      .next (s.answer 0x7D#8 .absent (num1 (s.store.rev .phrase i)))) ∧
    (s.store.present .phrase i = true → s.store.isDamaged (.slot .phrase i) = false →
      s.store.readable (Place.slot .phrase i).words →
      exec (.getPhrase (.fields { bank := b, phrase := p })) s =
        .next ({ s with store := s.store.afterReading (Place.slot .phrase i).words }.answer 0x7D#8 .ok
          (textBytes (Table.get [] s.store.phrases i) ++ num1 (s.store.rev .phrase i))))) ∧
  (∀ (s : State) (n : Nat), s.wf = true → s.store.ramErrors = [] →
    (let t : State := ((Ev.start s).composeScreen n).toState
     s.Settled t ∧ t.composer.tags = s.composer.tags ∧ (∀ m, m ≠ n → t.composer.screen m = s.composer.screen m) ∧
     (s.store.present .screen n = true → s.store.isDamaged (.slot .screen n) = true → t = s) ∧
     (s.store.present .screen n = false ∨ s.store.isDamaged (.slot .screen n) = false →
       ∃ f, t.ScreenShows n f ∧ PanelContent.Composed f (s.composer.screen n) (t.composer.screen n))) ∧
    (let t : State := ((Ev.start s).composeTag n).toState
     s.Settled t ∧ t.composer.screens = s.composer.screens ∧ (∀ m, m ≠ n → t.composer.tag m = s.composer.tag m) ∧
     PanelContent.Composed (t.tagShown n) (s.composer.tag n) (t.composer.tag n))) ∧
  (∀ (f g : Frame) (i j : Item) (p : Nat) (x : PhraseText),
    let resolved : PhraseText → Text
      | .rom b => Config.romText b p
      | .stored t => t
    (sameFrame f g = true ↔ f.length = g.length ∧ ∀ (k : Nat) (a b : List Item), f[k]? = some a → g[k]? = some b →
      a.length = b.length ∧ ∀ (l : Nat) (i j : Item), a[l]? = some i → b[l]? = some j → sameItem i j = true) ∧
    (sameItem (.phrase p x) j = true ↔ ∃ y, j = .phrase p y ∧ resolved x = resolved y) ∧
    ((∀ q u, i ≠ .phrase q u) → (sameItem i j = true ↔ i = j)))

/-! ### The panel link: the screen channel. -/

/-- R164 to R168: on an idle channel the arbiter makes the due reply, else a send of the head of the send queue, else the due kiosk
poll at the lowest address from the rotation pointer on, wrapping, else the probe of the first due screen in silent-list order;
sends and probes carry content and version as they stand. That the commands of the lower rows do nothing then is the model's (log 4),
as is the record of the last frame sent (log 28). -/
def Obligations.TheScreenArbiterChooses : Prop :=
  ∀ s : State, s.scr.transfer = none →
    let c := s.scr
    let content (n : Nat) : PanelFrame :=
      { address := n, body := .send (s.composer.screen n).version (s.composer.screen n).content }
    let due (n : Nat) : Prop := n < 48 ∧ n ∈ c.kioskDue
    (∀ r, c.reply = some r → exec .reply s = .next { s with scr := { c with
      transfer := some (.reply r.screen), lastFrame := some { address := r.screen, body := .reply r.body }, reply := none } } ∧
      exec .send s = .next s ∧ exec .kioskPoll s = .next s ∧ exec .probe s = .next s) ∧
    (c.reply = none → ∀ n rest, c.sendQueue = n :: rest → exec .send s = .next { s with scr := { c with
      transfer := some (.send n (s.composer.screen n).version), lastFrame := some (content n) } } ∧
      exec .kioskPoll s = .next s ∧ exec .probe s = .next s) ∧
    (c.reply = none → c.sendQueue = [] → ∀ n, due n →
      ((c.kioskPtr ≤ n ∧ ∀ m, due m → c.kioskPtr ≤ m → n ≤ m) ∨
        ((∀ m, due m → m < c.kioskPtr) ∧ ∀ m, due m → n ≤ m)) →
      exec .kioskPoll s = .next { s with scr := { c with
        transfer := some (.poll n), lastFrame := some { address := n, body := .kioskPoll }
        kioskDue := c.kioskDue.filter (· ≠ n), kioskPtr := (n + 1) % 48 } } ∧ exec .probe s = .next s) ∧
    (c.reply = none → c.sendQueue = [] → (∀ m, ¬due m) → ∀ before n after, c.silent = before ++ n :: after →
      (∀ m ∈ before, m ∉ c.probeDue) → n ∈ c.probeDue →
      exec .probe s = .next { s with scr := { c with
        transfer := some (.probe n (s.composer.screen n).version), lastFrame := some (content n)
        probeDue := c.probeDue.filter (· ≠ n) } })

/-- R89, R153, R163 to R167: what the panels' answers do on the screen channel. An ACK of a send or probe with its version records
it, an ACK of an older version leaves a queued screen at the tail (log 48), an ACK of a reply changes nothing, from whatever address (log 25); NOTHING and the queries set a kiosk's missed polls to 0; a
query's reply is REFUSED-MUSTER in DRILL and MUSTER, and in NORMAL it is built in the kiosk's bank and falls due. A route reply holds
the target's name, where it is known, and the target line from the kiosk's node; a programme reply holds the first four lines, in listing order, of the entries from the minute
on and of those RUNNING, none ENDED, for the audience. Every answer ends the transfer. The bank and the node where the kiosk's record or
its index entry gives none are free (log 12). -/
def Obligations.ScreenAnswersAct : Prop :=
  ∀ s : State, s.wf = true →
    let idle : State := { s with scr := { s.scr with transfer := none } }
    (∀ n v, s.scr.transfer = some (.send n v) → ∃ t, exec (.ack n v) s = .next t ∧
      t = { s with scr := { s.scr with
        transfer := none, links := t.scr.links, sendQueue := t.scr.sendQueue, kioskDue := t.scr.kioskDue } } ∧
      t.scr.link n = { s.scr.link n with acked := some v, attempts := 0 } ∧
      (∀ m, m ≠ n → t.scr.link m = s.scr.link m ∧ (m ∈ t.scr.kioskDue ↔ m ∈ s.scr.kioskDue)) ∧
      (v = (s.composer.screen n).version → t.scr.sendQueue = s.scr.sendQueue.filter (· ≠ n)) ∧
      (v ≠ (s.composer.screen n).version → n ∈ s.scr.sendQueue →
        t.scr.sendQueue = s.scr.sendQueue.filter (· ≠ n) ++ [n]) ∧
      (v ≠ (s.composer.screen n).version → n ∉ s.scr.sendQueue → t.scr.sendQueue =
        if (s.scr.link n).silent = false ∧ (s.scr.link n).paused = false then s.scr.sendQueue ++ [n] else s.scr.sendQueue)) ∧
    (∀ n v, s.scr.transfer = some (.probe n v) → ∃ t, exec (.ack n v) s = .next t ∧
      t = { s with scr := { s.scr with
        transfer := none, links := t.scr.links, sendQueue := t.scr.sendQueue, kioskDue := t.scr.kioskDue
        silent := s.scr.silent.filter (· ≠ n), probeDue := s.scr.probeDue.filter (· ≠ n) } } ∧
      t.scr.link n = { s.scr.link n with silent := false, acked := some v, attempts := 0 } ∧
      (∀ m, m ≠ n → t.scr.link m = s.scr.link m ∧ (m ∈ t.scr.kioskDue ↔ m ∈ s.scr.kioskDue)) ∧
      (n ∈ t.scr.sendQueue ↔ n ∈ s.scr.sendQueue ∨
        ((s.scr.link n).paused = false ∧ v ≠ (s.composer.screen n).version)) ∧
      ((s.scr.link n).presence = .kiosk → (s.scr.link n).silent = true → (s.scr.link n).paused = false →
        n ∈ t.scr.kioskDue)) ∧
    (∀ n a v, s.scr.transfer = some (.reply n) → exec (.ack a v) s = .next idle) ∧
    (∀ n, s.scr.transfer = some (.poll n) →
      let polled (t u : State) : Prop :=
        (t.scr.link n) = { s.scr.link n with missedPolls := 0 } ∧ (∀ m, m ≠ n → t.scr.link m = u.scr.link m)
      (∃ t, exec (.nothing n) s = .next t ∧ polled t s ∧
        t = { s with scr := { s.scr with transfer := none, links := t.scr.links, kioskDue := t.scr.kioskDue } }) ∧
      (s.mode.mode ≠ .normal → ∀ c, (∃ x, c = .routeQuery n x) ∨ (∃ m a, a < 4 ∧ c = .programmeQuery n m a) →
        ∃ t, exec c s = .next t ∧ polled t s ∧ t = { s with scr := { s.scr with
          transfer := none, links := t.scr.links, kioskDue := t.scr.kioskDue
          reply := some { screen := n, body := .refusedMuster } } }) ∧
      (∀ k : ScreenRef, s.mode.mode = .normal → s.graph.screen n = some k → s.store.present .screen n = true →
        s.store.isDamaged (.slot .screen n) = false → s.store.ramErrors = [] →
        let bank := (s.store.screenRec n).bank
        let replied (c : Instr) (lines : Frame → Prop) : Prop := ∃ t lines', exec c s = .next t ∧ polled t s ∧ lines lines' ∧
          t = { s with scr := { s.scr with
            transfer := none, links := t.scr.links, kioskDue := t.scr.kioskDue
            reply := some { screen := n, body := .answer lines' } } }
        (∀ x, 40 ≤ x ∨ s.routes.col x = .empty →
          replied (.routeQuery n x) (· = [[.phrase 11 (.rom bank)]])) ∧
        (∀ x, x < 40 → s.routes.col x ≠ .empty → replied (.routeQuery n x)
          (· = [s.nameShown bank x ++ cellItems s.graph .normal bank (decide (s.routes.col x = .stale)) k.node
            (if s.store.isDamaged (.cell x k.node) then {} else s.store.cell x k.node)])) ∧
        (∀ m a (audience : Audience), [Audience.all, .adult, .family, .youth][a]? = some audience →
          (143999 < m → replied (.programmeQuery n m a) (· = [])) ∧
          (m ≤ 143999 → replied (.programmeQuery n m a) fun lines => ∃ list,
            s.IsListing (fun h row => (m < row.start ∨ row.start = m ∨ row.state = .running) ∧ row.state ≠ .ended ∧
              (audience = .all ∨ (s.store.entryRec h).audience = audience ∨ (s.store.entryRec h).audience = .all)) list ∧
            lines = (list.take 4).map (s.entryShown bank)))) ∧
      (s.mode.mode = .normal → ∀ c, (∃ x, c = .routeQuery n x) ∨ (∃ m a, a < 4 ∧ c = .programmeQuery n m a) →
        ∃ t lines, exec c s = .next t ∧ t.scr.transfer = none ∧ t.mode = s.mode ∧ lines.length ≤ 4 ∧
          t.scr.reply = some { screen := n, body := .answer lines }))

/-- R164 to R167: no answer to a send or a kiosk poll counts an attempt or a missed poll, and the third in a row makes the screen
SILENT: it leaves queue and rotation, joins the silent list, and sets the PANEL notice; no answer to a probe or a reply changes
nothing but that the transfer ends. A probe falls due for a SILENT screen that is not paused, a poll for a kiosk in the
rotation. -/
def Obligations.ScreenSilenceAndTimers : Prop :=
  ∀ s : State, s.wf = true →
    let idle : State := { s with scr := { s.scr with transfer := none } }
    let counted (c : Instr) (n : Nat) (l : ScreenLink) : Prop := ∃ t, exec c s = .next t ∧
      t = { s with scr := { s.scr with transfer := none, links := t.scr.links, kioskDue := t.scr.kioskDue } } ∧
      t.scr.link n = l ∧ (∀ m, m ≠ n → t.scr.link m = s.scr.link m ∧ (m ∈ t.scr.kioskDue ↔ m ∈ s.scr.kioskDue))
    let dropped (c : Instr) (n : Nat) (l : ScreenLink) : Prop := ∃ t, exec c s = .next t ∧
      t = State.notice .panel { s with scr := { s.scr with
        transfer := none, links := t.scr.links, kioskDue := s.scr.kioskDue.filter (· ≠ n)
        sendQueue := s.scr.sendQueue.filter (· ≠ n), silent := s.scr.silent.filter (· ≠ n) ++ [n]
        probeDue := s.scr.probeDue.filter (· ≠ n) } } ∧
      t.scr.link n = { l with silent := true } ∧ (∀ m, m ≠ n → t.scr.link m = s.scr.link m)
    (∀ n v, s.scr.transfer = some (.send n v) →
      ((s.scr.link n).attempts < 2 →
        counted .sendNoAnswer n { s.scr.link n with attempts := (s.scr.link n).attempts + 1 }) ∧
      (2 ≤ (s.scr.link n).attempts → dropped .sendNoAnswer n { s.scr.link n with attempts := 0 })) ∧
    (∀ n, s.scr.transfer = some (.poll n) →
      ((s.scr.link n).missedPolls < 2 →
        counted .kioskPollNoAnswer n { s.scr.link n with missedPolls := (s.scr.link n).missedPolls + 1 }) ∧
      (2 ≤ (s.scr.link n).missedPolls → dropped .kioskPollNoAnswer n { s.scr.link n with missedPolls := 0 })) ∧
    (∀ n v, s.scr.transfer = some (.probe n v) → exec .probeNoAnswer s = .next idle) ∧
    (∀ n, s.scr.transfer = some (.reply n) → exec .replyNoAnswer s = .next idle) ∧
    (∀ n, n ∈ s.scr.silent → (s.scr.link n).paused = false → n ∉ s.scr.probeDue →
      exec (.probeDue n) s = .next { s with scr := { s.scr with probeDue := s.scr.probeDue ++ [n] } }) ∧
    (∀ n, n < 48 → (s.scr.link n).presence = .kiosk → (s.scr.link n).silent = false → (s.scr.link n).paused = false →
      n ∉ s.scr.kioskDue →
      exec (.kioskPollDue n) s = .next { s with scr := { s.scr with kioskDue := s.scr.kioskDue ++ [n] } })

/-! ### The panel link: the tag channel. -/

/-- R171 to R175: on an idle channel the arbiter makes the DONE poll that fell due earliest, the lowest address of those that fell due
together (log 22); else, with fewer than 8 tags refreshing, a send, in NORMAL of the first queued cabin that is not refreshing, in a
session of the walk or, once it is finished, of the sweep list; else a due rotation poll, in a session where the sweep gives nothing
too. A command whose row is not the arbiter's choice sends nothing: TAG SEND and STATUS POLL while a DONE poll is due, TAG SEND with 8
refreshing, STATUS POLL while a send can be made; that it does nothing is the model's (log 4), as is the service state that a send
carries for a cabin without one (log 20), the record of the last frame sent (log 28) and the resolution of the time at which the next
DONE poll falls due (log 44). -/
def Obligations.TheTagArbiterChooses : Prop :=
  ∀ s : State, s.tag.transfer = none →
    let c := s.tag
    let content (n : Nat) : PanelFrame :=
      { address := n, body := .tagSend (s.composer.tag n).version (s.tagService n) (s.composer.tag n).content }
    let sends (n : Nat) (c' : TagChannel) : Prop := exec .tagSend s = .next { s with tag := { c' with
        transfer := some (.send n (s.composer.tag n).version), lastFrame := some (content n) } } ∧
      exec .statusPoll s = .next s ∧ exec .donePoll s = .next s
    let polls (c' : TagChannel) : Prop :=
      let fit (n : Nat) : Prop := n < 512 ∧ s.store.present .cabin n = true ∧ (c.link n).refresh = none
      (c.rotationDue = true → ∀ n, fit n → ((c.rotationPtr ≤ n ∧ ∀ m, fit m → c.rotationPtr ≤ m → n ≤ m) ∨
          ((∀ m, fit m → m < c.rotationPtr) ∧ ∀ m, fit m → n ≤ m)) →
        exec .statusPoll s = .next { s with tag := { c' with
          transfer := some (.statusPoll n), lastFrame := some { address := n, body := .statusPoll }
          rotationPtr := (n + 1) % 512, rotationDue := false } } ∧
        exec .tagSend s = .next s ∧ exec .donePoll s = .next s) ∧
      (c.rotationDue = false ∨ (∀ n, ¬fit n) → ∀ k, k = Instr.tagSend ∨ k = .donePoll ∨ k = .statusPoll →
        exec k s = .next { s with tag := c' })
    (∀ d ∈ c.doneDue, (∀ e ∈ c.doneDue, d.moment < e.moment ∨ (d.moment = e.moment ∧ d.cabin ≤ e.cabin)) →
      exec .donePoll s = .next { s with tag := { (c.polled d.cabin s.time.refCount) with
        doneDue := c.doneDue.filter (· ≠ d), transfer := some (.donePoll d.cabin)
        lastFrame := some { address := d.cabin, body := .donePoll } } }) ∧
    (c.doneDue ≠ [] → exec .tagSend s = .next s ∧ exec .statusPoll s = .next s) ∧
    (c.doneDue = [] → 8 ≤ c.inRefresh.length → exec .tagSend s = .next s ∧ polls c) ∧
    (c.doneDue = [] → c.inRefresh.length < 8 →
      (s.mode.mode = .normal →
        (∀ before n after, c.routine = before ++ n :: after → (∀ m ∈ before, c.refreshing m = true) →
          c.refreshing n = false → sends n { c with routine := c.routine.filter (· ≠ n) }) ∧
        ((∀ m ∈ c.routine, c.refreshing m = true) → polls c)) ∧
      (s.mode.mode ≠ .normal → ∀ w, c.sweep = some w →
        let fit (n : Nat) : Prop := w.walk ≤ n ∧ n < 512 ∧ s.store.present .cabin n = true ∧
          (c.link n).service = .inService ∧ (c.link n).refresh = none
        (∀ n, fit n → (∀ m < n, ¬fit m) → sends n { c with sweep := some { w with walk := n + 1 } }) ∧
        ((∀ m, ¬fit m) → (∀ n rest, w.list = n :: rest → sends n { c with sweep := some { walk := 512, list := rest } }) ∧
          (w.list = [] → polls { c with sweep := some { walk := 512, list := [] } }))))

/-- R127, R129, R170 to R173: ACCEPTED begins a refresh, BUSY hands the cabin back, DONE ends the refresh with the version sent
shown, REFRESHING lets it go on, STATUS returns a SILENT or FAULT tag to service, dirty. A button state equal to the service copy
changes nothing further; a differing one is written into the record and the summary, and listed; where the record is DAMAGED, or is
found damaged by the report's own read, the summary and the list take it and the record and its revision stay. A DONE of a tag that is no longer
refreshing, after a FAULT, ends the transfer alone. With no error in the RAM the reporting cabin's tag shows the state reported (R127,
R157). Where BUSY, a DONE of an older version and a returned tag leave the cabin, in the
routine queue and, in a session, in the sweep list, is section 10.3's as log 23 reads it; the resolution of a refresh record's times
and the place that a tag's DECK line takes the station's node from are the model's choice (logs 44, 47). -/
def Obligations.TagAnswersAct : Prop :=
  ∀ s : State, s.wf = true →
    (∀ n v, s.tag.transfer = some (.send n v) →
      (∃ t, exec (.accepted n) s = .next t ∧ t = { s with tag := { s.tag with transfer := none, links := t.tag.links } } ∧
        t.tag.link n = { s.tag.link n with
          missed := 0
          refresh := some { version := v, acceptedAt := s.time.refCount, pollAt := s.time.refCount + 16384 } } ∧
        ∀ m, m ≠ n → t.tag.link m = s.tag.link m) ∧
      (∃ t, exec (.busy n) s = .next t ∧ t = { s with tag := { s.tag with
          transfer := none, links := t.tag.links, routine := t.tag.routine, sweep := t.tag.sweep } } ∧
        t.tag.link n = { s.tag.link n with missed := 0 } ∧ (∀ m, m ≠ n → t.tag.link m = s.tag.link m) ∧
        (let l := s.tag.link n
         t.tag.routine = if l.dirty = true ∧ l.service = .inService ∧ l.refresh = none ∧ n ∉ s.tag.routine then
            s.tag.routine ++ [n] else s.tag.routine) ∧
        (∀ w, s.tag.sweep = some w → t.tag.sweep = some { w with
          list := if w.walk ≤ n ∨ n ∈ w.list then w.list else w.list ++ [n] }))) ∧
    (∀ n b, ((s.cabinTable.summary n).map Summary.service = some b ∨ s.store.present .cabin n = false) →
      (s.tag.transfer = some (.donePoll n) →
        exec (.refreshing n b.code) s = .next { s with tag := { s.tag with transfer := none } } ∧
        ((s.tag.link n).refresh = none →
          exec (.done n b.code) s = .next { s with tag := { s.tag with transfer := none } }) ∧
        ∀ r, (s.tag.link n).refresh = some r → ∃ t, exec (.done n b.code) s = .next t ∧ t = { s with tag := { s.tag with
            transfer := none, links := t.tag.links, routine := t.tag.routine, sweep := t.tag.sweep
            doneDue := t.tag.doneDue } } ∧
          t.tag.link n = { s.tag.link n with
            shown := r.version, dirty := decide (r.version ≠ (s.composer.tag n).version), refresh := none } ∧
          (∀ m, m ≠ n → t.tag.link m = s.tag.link m) ∧ (∀ d, d ∈ t.tag.doneDue ↔ d ∈ s.tag.doneDue ∧ d.cabin ≠ n) ∧
          (r.version = (s.composer.tag n).version → n ∉ t.tag.routine ∧ ∀ w, t.tag.sweep = some w → n ∉ w.list) ∧
          (r.version ≠ (s.composer.tag n).version → (s.tag.link n).service = .inService → n ∈ t.tag.routine)) ∧
      (s.tag.transfer = some (.statusPoll n) →
        ((s.tag.link n).service = .inService →
          exec (.status n b.code) s = .next { s with tag := { s.tag with transfer := none } }) ∧
        ((s.tag.link n).service ≠ .inService → ∃ t, exec (.status n b.code) s = .next t ∧ t = { s with tag := { s.tag with
            transfer := none, links := t.tag.links, routine := t.tag.routine, sweep := t.tag.sweep } } ∧
          t.tag.link n = { s.tag.link n with service := .inService, missed := 0, dirty := true } ∧
          (∀ m, m ≠ n → t.tag.link m = s.tag.link m) ∧ ((s.tag.link n).refresh = none → n ∈ t.tag.routine)))) ∧
    (∀ n b, n < 512 → s.store.present .cabin n = true → (s.cabinTable.summary n).map Summary.service ≠ some b →
      s.store.isDamaged (.slot .cabin n) = false → s.store.readable [4136 + n * 28, 4136 + n * 28 + 1] →
      let words := [4136 + n * 28, 4136 + n * 28 + 1]
      let st := s.store.afterReading words
      let list := s.cabinTable.service
      let summary := (s.cabinTable.summary n).map fun m : Summary => { m with service := b }
      (s.tag.transfer = some (.donePoll n) ∨ (s.tag.transfer = some (.statusPoll n) ∧ (s.tag.link n).service = .inService)) →
      ∀ c, (c = .refreshing n b.code ∧ s.tag.transfer = some (.donePoll n)) ∨
          (c = .status n b.code ∧ s.tag.transfer = some (.statusPoll n)) →
        ∃ t list', exec c s = .next t ∧
          ({ s with
              store := { st with cabins := Table.set {} st.cabins n { st.cabinRec n with service := b } }.changeSlot .cabin n words
              tag := { s.tag with transfer := none }
              cabinTable := { s.cabinTable.setSummary n summary with service := list' } }).Settled t ∧
          t.isPending .service = true ∧ (s.store.ramErrors = [] → t.Shows (.cabin n)) ∧
          ((∀ e ∈ list, e.cabin ≠ n) → list' = list ++ [{ cabin := n, service := b }]) ∧
          ((∃ e ∈ list, e.cabin = n) → list' = list.map fun e => if e.cabin = n then { cabin := n, service := b } else e)) ∧
    (∀ n b b₀, n < 512 → s.store.present .cabin n = true → (s.cabinTable.summary n).map Summary.service = some b₀ → b ≠ b₀ →
      s.store.isDamaged (.slot .cabin n) = false → s.store.readable [4136 + n * 28, 4136 + n * 28 + 1] →
      let words := [4136 + n * 28, 4136 + n * 28 + 1]
      let st := s.store.afterReading words
      let list := s.cabinTable.service
      let summary := (s.cabinTable.summary n).map fun m : Summary => { m with service := b }
      ∀ c : Service → Instr, (c = (fun x => .done n x.code) ∧ s.tag.transfer = some (.donePoll n)) ∨
          (c = (fun x => .status n x.code) ∧ s.tag.transfer = some (.statusPoll n)) →
        ∃ u t list', exec (c b₀) s = .next u ∧ u = { s with tag := u.tag } ∧ exec (c b) s = .next t ∧
          ({ s with
              store := { st with cabins := Table.set {} st.cabins n { st.cabinRec n with service := b } }.changeSlot .cabin n words
              tag := u.tag
              cabinTable := { s.cabinTable.setSummary n summary with service := list' } }).Settled t ∧
          t.isPending .service = true ∧ (s.store.ramErrors = [] → t.Shows (.cabin n)) ∧
          ((∀ e ∈ list, e.cabin ≠ n) → list' = list ++ [{ cabin := n, service := b }]) ∧
          ((∃ e ∈ list, e.cabin = n) → list' = list.map fun e => if e.cabin = n then { cabin := n, service := b } else e)) ∧
    (∀ n b b₀, n < 512 → s.store.present .cabin n = true → (s.cabinTable.summary n).map Summary.service = some b₀ → b ≠ b₀ →
      s.store.isDamaged (.slot .cabin n) = true ∨ ¬s.store.readable [4136 + n * 28, 4136 + n * 28 + 1] →
      let list := s.cabinTable.service
      let summary := (s.cabinTable.summary n).map fun m : Summary => { m with service := b }
      ∀ c : Service → Instr, (c = (fun x => .done n x.code) ∧ s.tag.transfer = some (.donePoll n)) ∨
          (c = (fun x => .refreshing n x.code) ∧ s.tag.transfer = some (.donePoll n)) ∨
          (c = (fun x => .status n x.code) ∧ s.tag.transfer = some (.statusPoll n)) →
        ∃ u t list', exec (c b₀) s = .next u ∧ u = { s with tag := u.tag } ∧ exec (c b) s = .next t ∧
          ({ s with tag := u.tag, cabinTable := { s.cabinTable.setSummary n summary with service := list' } }).Kept t ∧
          t.store.isDamaged (.slot .cabin n) = true ∧ t.isPending .service = true ∧
          (s.store.isDamaged (.slot .cabin n) = false → t.isPending .store = true) ∧
          (s.store.ramErrors = [] → PanelContent.Composed (t.tagShown n) (s.composer.tag n) (t.composer.tag n)) ∧
          ((∀ e ∈ list, e.cabin ≠ n) → list' = list ++ [{ cabin := n, service := b }]) ∧
          ((∃ e ∈ list, e.cabin = n) → list' = list.map fun e => if e.cabin = n then { cabin := n, service := b } else e))

/-- R171 to R173: a first unanswered send hands the cabin back, a second makes the tag SILENT; no answer to a DONE poll or a rotation
poll changes nothing but that the transfer ends; 6 s after ACCEPTED without DONE the tag becomes FAULT. A tag that drops out leaves
routine queue and sweep list, stays dirty as it was, and sets the PANEL notice. DONE polls and rotation polls fall due. That the first
unanswered send hands the cabin back to the sweep is section 10.3's as log 23 reads it; that a tag which drops out while it is clean
stays clean is the model's (log 49); that DONE polls which fall due together share
their moment, and the operand that says so, are the model's (log 22). -/
def Obligations.TagSilenceAndTimers : Prop :=
  ∀ s : State, s.wf = true →
    let idle : State := { s with tag := { s.tag with transfer := none } }
    let without (n : Nat) : TagChannel := { s.tag with
      routine := s.tag.routine.filter (· ≠ n)
      sweep := s.tag.sweep.map fun w : TagSweep => { w with list := w.list.filter (· ≠ n) } }
    (∀ n v, s.tag.transfer = some (.send n v) →
      ((s.tag.link n).missed = 0 → ∃ t, exec .tagSendNoAnswer s = .next t ∧ t = { s with tag := { s.tag with
          transfer := none, links := t.tag.links, routine := t.tag.routine, sweep := t.tag.sweep } } ∧
        t.tag.link n = { s.tag.link n with missed := 1 } ∧ (∀ m, m ≠ n → t.tag.link m = s.tag.link m) ∧
        ((s.tag.link n).dirty = true → (s.tag.link n).service = .inService → (s.tag.link n).refresh = none →
          n ∈ t.tag.routine) ∧
        (∀ w, s.tag.sweep = some w → w.walk ≤ n ∨ ∃ w', t.tag.sweep = some w' ∧ n ∈ w'.list)) ∧
      (1 ≤ (s.tag.link n).missed → ∃ t, exec .tagSendNoAnswer s = .next t ∧
        t = State.notice .panel { s with tag := { without n with transfer := none, links := t.tag.links } } ∧
        t.tag.link n = { s.tag.link n with missed := 0, service := .silent } ∧
        ∀ m, m ≠ n → t.tag.link m = s.tag.link m)) ∧
    (∀ n, s.tag.transfer = some (.donePoll n) → exec .donePollNoAnswer s = .next idle) ∧
    (∀ n, s.tag.transfer = some (.statusPoll n) → exec .statusPollNoAnswer s = .next idle) ∧
    (∀ n r, (s.tag.link n).refresh = some r → ∃ t, exec (.refreshTimeout n) s = .next t ∧
      t = State.notice .panel { s with tag := { without n with
        links := t.tag.links, doneDue := s.tag.doneDue.filter fun d => d.cabin ≠ n } } ∧
      t.tag.link n = { s.tag.link n with service := .fault, refresh := none } ∧
      ∀ m, m ≠ n → t.tag.link m = s.tag.link m) ∧
    (∀ n r together, (s.tag.link n).refresh = some r → (∀ d ∈ s.tag.doneDue, d.cabin ≠ n) →
      ∃ d, exec (.donePollDue n together) s = .next { s with tag := { s.tag with doneDue := s.tag.doneDue ++ [d] } } ∧
        d.cabin = n ∧ ∀ rest last, s.tag.doneDue = rest ++ [last] →
          d.moment = if together then last.moment else last.moment + 1) ∧
    exec .rotationPollDue s = .next { s with tag := { s.tag with rotationDue := true } }
end

