-- ==== Sys2Proof/Laws/Tables.lean ====
section
/-! SUPPORT. The laws of tables: a read after a write, and the canonical form that every write keeps. -/

namespace Sys2Proof.Machine

section
variable {α : Type}

@[simp] theorem Table.get_nil (d : α) (k : Nat) : Table.get d [] k = d := rfl

variable [DecidableEq α]

@[simp] theorem Table.wf_nil (d : α) : Table.wf d [] = true := rfl

/-- The canonical form above a key implies it above every lower key. -/
theorem Table.wfAbove_mono {d : α} {t : Table α} {j k : Nat} (h : Table.wfAbove d k t = true) (hj : j ≤ k) :
    Table.wfAbove d j t = true := by
  cases t with
  | nil => rfl
  | cons p rest =>
    simp only [Table.wfAbove, Bool.and_eq_true, decide_eq_true_eq] at h ⊢
    exact ⟨⟨by omega, h.1.2⟩, h.2⟩

theorem Table.wf_of_wfAbove {d : α} {t : Table α} {k : Nat} (h : Table.wfAbove d k t = true) : Table.wf d t = true := by
  cases t with
  | nil => rfl
  | cons p rest =>
    simp only [Table.wfAbove, Bool.and_eq_true] at h
    simp only [Table.wf, Bool.and_eq_true]
    exact ⟨h.1.2, h.2⟩

/-- A key at or below the bound of a canonical table is not listed. -/
theorem Table.get_of_wfAbove {d : α} {t : Table α} {j k : Nat} (h : Table.wfAbove d k t = true) (hj : j ≤ k) :
    Table.get d t j = d := by
  induction t generalizing k with
  | nil => rfl
  | cons p rest ih =>
    simp only [Table.wfAbove, Bool.and_eq_true, decide_eq_true_eq] at h
    have hne : j ≠ p.1 := by omega
    simp only [Table.get, hne, if_false]
    exact ih h.2 (by omega)

/-- A read of another key does not see a write. -/
theorem Table.get_set_ne (d : α) (t : Table α) {j k : Nat} (v : α) (h : j ≠ k) :
    Table.get d (Table.set d t k v) j = Table.get d t j := by
  induction t with
  | nil => by_cases hv : v = d <;> simp [Table.set, Table.get, hv, h]
  | cons p rest ih =>
    obtain ⟨i, w⟩ := p
    simp only [Table.set]
    split
    · split <;> simp [Table.get, h]
    · split
      · rename_i hk
        subst hk
        split <;> simp [Table.get, h]
      · simp only [Table.get, ih]

/-- A read of a written key gives the value written, where the value is not the unlisted one. -/
theorem Table.get_set_eq_of_ne (d : α) (t : Table α) (k : Nat) {v : α} (hv : v ≠ d) :
    Table.get d (Table.set d t k v) k = v := by
  induction t with
  | nil => simp [Table.set, Table.get, hv]
  | cons p rest ih =>
    obtain ⟨i, w⟩ := p
    simp only [Table.set, hv, if_false]
    split
    · simp [Table.get]
    · split
      · simp [Table.get]
      · rename_i h
        simp only [Table.get, h, if_false, ih]

theorem Table.get_set_eq_above {d : α} {t : Table α} {b k : Nat} (v : α) (h : Table.wfAbove d b t = true) :
    Table.get d (Table.set d t k v) k = v := by
  by_cases hv : v = d
  · subst hv
    induction t generalizing b with
    | nil => simp [Table.set]
    | cons p rest ih =>
      obtain ⟨i, w⟩ := p
      simp only [Table.wfAbove, Bool.and_eq_true, decide_eq_true_eq] at h
      simp only [Table.set, if_true]
      split
      · rename_i hk
        have hne : k ≠ i := by omega
        simp only [Table.get, hne, if_false]
        exact Table.get_of_wfAbove h.2 (by omega)
      · split
        · rename_i hk
          subst hk
          exact Table.get_of_wfAbove h.2 (Nat.le_refl _)
        · rename_i hk
          simp only [Table.get, hk, if_false]
          exact ih h.2
  · exact Table.get_set_eq_of_ne d t k hv

/-- A read of a written key of a canonical table gives the value written. -/
theorem Table.get_set_eq {d : α} {t : Table α} (k : Nat) (v : α) (h : Table.wf d t = true) :
    Table.get d (Table.set d t k v) k = v := by
  cases t with
  | nil => by_cases hv : v = d <;> simp [Table.set, Table.get, hv]
  | cons p rest =>
    obtain ⟨i, w⟩ := p
    simp only [Table.wf, Bool.and_eq_true] at h
    simp only [Table.set]
    split
    · rename_i hk
      split
      · rename_i hv
        have hne : k ≠ i := by omega
        simp only [Table.get, hne, if_false, hv]
        exact Table.get_of_wfAbove h.2 (by omega)
      · simp [Table.get]
    · split
      · rename_i hk
        subst hk
        split
        · rename_i hv
          rw [hv]
          exact Table.get_of_wfAbove h.2 (Nat.le_refl _)
        · simp [Table.get]
      · rename_i hk
        simp only [Table.get, hk, if_false]
        exact Table.get_set_eq_above v h.2

/-- A read after a write to a canonical table. -/
theorem Table.get_set {d : α} {t : Table α} (j k : Nat) (v : α) (h : Table.wf d t = true) :
    Table.get d (Table.set d t k v) j = if j = k then v else Table.get d t j := by
  split
  · rename_i hj
    rw [hj, Table.get_set_eq k v h]
  · rename_i hj
    exact Table.get_set_ne d t v hj

theorem Table.wfAbove_set {d : α} {t : Table α} {b k : Nat} (v : α) (h : Table.wfAbove d b t = true) (hk : b < k) :
    Table.wfAbove d b (Table.set d t k v) = true := by
  induction t generalizing b with
  | nil => by_cases hv : v = d <;> simp [Table.set, Table.wfAbove, hv, hk]
  | cons p rest ih =>
    obtain ⟨i, w⟩ := p
    simp only [Table.wfAbove, Bool.and_eq_true, decide_eq_true_eq] at h
    simp only [Table.set]
    split
    · rename_i hki
      split
      · simp only [Table.wfAbove, Bool.and_eq_true, decide_eq_true_eq]; exact h
      · rename_i hv
        simp only [Table.wfAbove, Bool.and_eq_true, decide_eq_true_eq]
        exact ⟨⟨hk, hv⟩, ⟨hki, h.1.2⟩, h.2⟩
    · split
      · rename_i hki
        subst hki
        split
        · exact Table.wfAbove_mono h.2 (by omega)
        · rename_i hv
          simp only [Table.wfAbove, Bool.and_eq_true, decide_eq_true_eq]
          exact ⟨⟨hk, hv⟩, h.2⟩
      · simp only [Table.wfAbove, Bool.and_eq_true, decide_eq_true_eq]
        exact ⟨h.1, ih h.2 (by omega)⟩

/-- A write keeps the canonical form. -/
theorem Table.wf_set {d : α} {t : Table α} (k : Nat) (v : α) (h : Table.wf d t = true) :
    Table.wf d (Table.set d t k v) = true := by
  cases t with
  | nil => by_cases hv : v = d <;> simp [Table.set, Table.wf, Table.wfAbove, hv]
  | cons p rest =>
    obtain ⟨i, w⟩ := p
    simp only [Table.wf, Bool.and_eq_true, decide_eq_true_eq] at h
    simp only [Table.set]
    split
    · rename_i hki
      split
      · simp only [Table.wf, Bool.and_eq_true, decide_eq_true_eq]; exact h
      · rename_i hv
        simp only [Table.wf, Table.wfAbove, Bool.and_eq_true, decide_eq_true_eq]
        exact ⟨hv, ⟨hki, h.1⟩, h.2⟩
    · split
      · rename_i hki
        subst hki
        split
        · exact Table.wf_of_wfAbove h.2
        · rename_i hv
          simp only [Table.wf, Bool.and_eq_true, decide_eq_true_eq]
          exact ⟨hv, h.2⟩
      · simp only [Table.wf, Bool.and_eq_true, decide_eq_true_eq]
        exact ⟨h.1, Table.wfAbove_set v h.2 (by omega)⟩

/-- Writing one value at several keys keeps the canonical form. -/
theorem Table.wf_setAll {d : α} {t : Table α} (keys : List Nat) (v : α) (h : Table.wf d t = true) :
    Table.wf d (Table.setAll d t keys v) = true := by
  induction keys generalizing t with
  | nil => exact h
  | cons k rest ih => exact ih (Table.wf_set k v h)

/-- A read after writing one value at several keys of a canonical table. -/
theorem Table.get_setAll {d : α} {t : Table α} (keys : List Nat) (v : α) (j : Nat) (h : Table.wf d t = true) :
    Table.get d (Table.setAll d t keys v) j = if j ∈ keys then v else Table.get d t j := by
  induction keys generalizing t with
  | nil => simp [Table.setAll]
  | cons k rest ih =>
    have := ih (Table.wf_set k v h)
    simp only [Table.setAll, List.foldl_cons] at this ⊢
    rw [this, Table.get_set j k v h]
    by_cases hj : j = k <;> by_cases hr : j ∈ rest <;> simp [hj, hr]

/-- Writing the unlisted value to an empty table leaves it empty. -/
theorem Table.setAll_nil (d : α) (keys : List Nat) : Table.setAll d [] keys d = [] := by
  induction keys with
  | nil => rfl
  | cons k rest ih =>
    simp only [Table.setAll, List.foldl_cons] at ih ⊢
    simpa [Table.set] using ih

theorem Table.wfAbove_filterMap {β : Type} [DecidableEq β] {d : α} {e : β} (f : Nat × α → Option (Nat × β))
    (hf : ∀ p q, f p = some q → q.1 = p.1 ∧ q.2 ≠ e) {t : Table α} {b : Nat} (h : Table.wfAbove d b t = true) :
    Table.wfAbove e b (t.filterMap f) = true := by
  induction t generalizing b with
  | nil => rfl
  | cons p rest ih =>
    obtain ⟨i, w⟩ := p
    simp only [Table.wfAbove, Bool.and_eq_true, decide_eq_true_eq] at h
    simp only [List.filterMap_cons]
    split
    · exact Table.wfAbove_mono (ih h.2) (by omega)
    · rename_i q hq
      obtain ⟨h1, h2⟩ := hf _ _ hq
      obtain ⟨j, v⟩ := q
      simp only at h1
      subst h1
      simp only [Table.wfAbove, Bool.and_eq_true, decide_eq_true_eq]
      exact ⟨⟨h.1.1, h2⟩, ih h.2⟩

/-- Rewriting values in place, and dropping those that become the unlisted one, keeps the canonical form. -/
theorem Table.wf_filterMap {β : Type} [DecidableEq β] {d : α} {e : β} (f : Nat × α → Option (Nat × β))
    (hf : ∀ p q, f p = some q → q.1 = p.1 ∧ q.2 ≠ e) {t : Table α} (h : Table.wf d t = true) :
    Table.wf e (t.filterMap f) = true := by
  cases t with
  | nil => rfl
  | cons p rest =>
    obtain ⟨i, w⟩ := p
    simp only [Table.wf, Bool.and_eq_true, decide_eq_true_eq] at h
    simp only [List.filterMap_cons]
    split
    · exact Table.wf_of_wfAbove (Table.wfAbove_filterMap f hf h.2)
    · rename_i q hq
      obtain ⟨h1, h2⟩ := hf _ _ hq
      obtain ⟨j, v⟩ := q
      simp only at h1
      subst h1
      simp only [Table.wf, Bool.and_eq_true, decide_eq_true_eq]
      exact ⟨h2, Table.wfAbove_filterMap f hf h.2⟩

end

end Sys2Proof.Machine
end

