-- ==== Sys2Proof/Laws/Kept.lean ====
section
/-! SUPPORT. What reads, withdrawals, damage reactions and compositions leave alone: `State.Kept` is kept along each of the
operations that an event ends with. -/

namespace Sys2Proof.Machine

/-! ### The relations compose. -/

theorem Store.Kept.refl (a : Store) : a.Kept a :=
  ⟨rfl, rfl, rfl, rfl, rfl, rfl, rfl, rfl, rfl, rfl, rfl, rfl, fun _ _ _ h => h, Nat.le_refl _, fun _ h => h, fun h => h⟩

theorem Store.Kept.trans {a b c : Store} (h : a.Kept b) (g : b.Kept c) : a.Kept c :=
  ⟨g.dir.trans h.dir, g.nodes.trans h.nodes, g.segments.trans h.segments, g.targets.trans h.targets,
    g.stations.trans h.stations, g.entrances.trans h.entrances, g.entries.trans h.entries, g.cabins.trans h.cabins,
    g.screens.trans h.screens, g.phrases.trans h.phrases, g.sweep.trans h.sweep, g.lastSweep.trans h.lastSweep,
    fun k i hi hd => g.damaged k i hi (h.damaged k i hi hd), Nat.le_trans h.corrected g.corrected,
    fun p hp => g.firstDamaged p (h.firstDamaged p hp), fun ha => g.alert (h.alert ha)⟩

theorem Routes.Kept.refl (a : Routes) : a.Kept a := ⟨fun _ => .inl rfl, fun c hc => ⟨c.overtaken, hc⟩⟩

theorem Routes.Kept.trans {a b c : Routes} (h : a.Kept b) (g : b.Kept c) : a.Kept c where
  col t := by
    rcases g.col t with g' | ⟨g1, g2⟩ <;> rcases h.col t with h' | ⟨h1, h2⟩
    · exact .inl (g'.trans h')
    · exact .inr ⟨h1, g'.trans h2⟩
    · exact .inr ⟨h' ▸ g1, g2⟩
    · exact .inr ⟨h1, g2⟩
  engine d hd := by
    obtain ⟨o, ho⟩ := h.engine d hd
    obtain ⟨o', ho'⟩ := g.engine _ ho
    exact ⟨o', ho'⟩

theorem Muster.Kept.refl (a : Muster) : a.Kept a := ⟨rfl, rfl, rfl, rfl, rfl, rfl, rfl, fun _ => .inl rfl⟩

theorem Muster.Kept.trans {a b c : Muster} (h : a.Kept b) (g : b.Kept c) : a.Kept c where
  stationSettings := g.stationSettings.trans h.stationSettings
  entranceSettings := g.entranceSettings.trans h.entranceSettings
  beams := g.beams.trans h.beams
  decoders := g.decoders.trans h.decoders
  roster := g.roster.trans h.roster
  session := g.session.trans h.session
  roll := g.roll.trans h.roll
  live n := by
    rcases g.live n with g' | g' <;> rcases h.live n with h' | h' <;> rw [g', h']
    · exact .inl rfl
    · exact .inr rfl
    · exact .inr rfl
    · exact .inr rfl

theorem ScreenChannel.Kept.refl (a : ScreenChannel) : a.Kept a := ⟨rfl, rfl, rfl, rfl, rfl, fun _ => .inl rfl⟩

theorem ScreenChannel.Kept.trans {a b c : ScreenChannel} (h : a.Kept b) (g : b.Kept c) : a.Kept c where
  transfer := g.transfer.trans h.transfer
  reply := g.reply.trans h.reply
  kioskPtr := g.kioskPtr.trans h.kioskPtr
  lastFrame := g.lastFrame.trans h.lastFrame
  silent := g.silent.trans h.silent
  link n := by
    rcases g.link n with g' | g' <;> rcases h.link n with h' | h' <;> rw [g', h']
    · exact .inl rfl
    · exact .inr rfl
    · exact .inr rfl
    · exact .inr rfl

theorem TagChannel.Kept.refl (a : TagChannel) : a.Kept a := ⟨rfl, rfl, rfl, rfl, rfl, rfl, rfl, fun _ => .inl rfl⟩

theorem TagChannel.Kept.trans {a b c : TagChannel} (h : a.Kept b) (g : b.Kept c) : a.Kept c where
  transfer := g.transfer.trans h.transfer
  doneDue := g.doneDue.trans h.doneDue
  suspended := g.suspended.trans h.suspended
  rotationPtr := g.rotationPtr.trans h.rotationPtr
  rotationDue := g.rotationDue.trans h.rotationDue
  lastFrame := g.lastFrame.trans h.lastFrame
  walk := g.walk.trans h.walk
  link n := by
    rcases g.link n with g' | g' <;> rcases h.link n with h' | h' <;> rw [g', h']
    · exact .inl rfl
    · exact .inr rfl
    · exact .inr rfl
    · exact .inr rfl

theorem Port.Kept.refl (a : Port) : a.Kept a := ⟨rfl, rfl, rfl, rfl, rfl, rfl, fun _ h => h⟩

theorem Port.Kept.trans {a b c : Port} (h : a.Kept b) (g : b.Kept c) : a.Kept c :=
  ⟨g.requestBuffer.trans h.requestBuffer, g.buffer.trans h.buffer, g.enables.trans h.enables, g.master.trans h.master,
    g.resetCause.trans h.resetCause, g.spiOut.trans h.spiOut, fun i hi => g.latched i (h.latched i hi)⟩

theorem State.Kept.refl (a : State) : a.Kept a :=
  ⟨.refl _, rfl, .refl _, rfl, rfl, .refl _, rfl, rfl, .refl _, .refl _, .refl _, rfl, rfl⟩

theorem State.Kept.trans {a b c : State} (h : a.Kept b) (g : b.Kept c) : a.Kept c :=
  ⟨h.store.trans g.store, g.graph.trans h.graph, h.routes.trans g.routes, g.time.trans h.time, g.prog.trans h.prog,
    h.muster.trans g.muster, g.cabinTable.trans h.cabinTable, g.mode.trans h.mode, h.scr.trans g.scr, h.tag.trans g.tag,
    h.port.trans g.port, g.freeCount.trans h.freeCount, g.pending.trans h.pending⟩

/-- An event keeps what `State.Kept` keeps. -/
abbrev Ev.Kept (e e' : Ev) : Prop := e.toState.Kept e'.toState

/-! ### The store. -/

theorem Store.kept_correct (st : Store) (w : Nat) : st.Kept (st.correct w false) :=
  ⟨rfl, rfl, rfl, rfl, rfl, rfl, rfl, rfl, rfl, rfl, rfl, rfl, fun _ _ _ h => h,
    by simp only [Store.correct, countTo]; split <;> omega, fun _ h => h, fun h => h⟩

/-- Setting a DAMAGED flag clears none. -/
theorem Store.isDamaged_setDamaged_true {st : Store} (p q : Place) (h : st.isDamaged q = true) :
    (st.setDamaged p true).isDamaged q = true := by
  by_cases hn : q.name = p.name
  · simp [Store.isDamaged, Store.setDamaged, hn, Table.get_set_eq_of_ne]
  · simpa [Store.isDamaged, Store.setDamaged, Table.get_set_ne _ _ _ hn] using h

/-- A finding's flag is set. -/
theorem Store.isDamaged_setDamaged_self (st : Store) (p : Place) : (st.setDamaged p true).isDamaged p = true := by
  simp [Store.isDamaged, Store.setDamaged, Table.get_set_eq_of_ne]

theorem Store.kept_find (st : Store) (p : Place) : st.Kept (st.find p false) where
  dir := rfl
  nodes := rfl
  segments := rfl
  targets := rfl
  stations := rfl
  entrances := rfl
  entries := rfl
  cabins := rfl
  screens := rfl
  phrases := rfl
  sweep := rfl
  lastSweep := rfl
  damaged _ _ _ h := Store.isDamaged_setDamaged_true p _ h
  corrected := Nat.le_refl _
  firstDamaged q h := by simp [Store.find, h]
  alert _ := rfl

theorem Store.kept_readList (p : Place) (ws : List Nat) (st : Store) : st.Kept (Store.readList p false ws st).1 := by
  induction ws generalizing st with
  | nil => exact .refl _
  | cons w rest ih =>
    simp only [Store.readList]
    split
    · exact ih st
    · exact (st.kept_correct w).trans (ih _)
    · exact st.kept_find p

theorem Store.kept_read (st : Store) (p : Place) (ws : List Nat) : st.Kept (st.read p ws).1 := by
  simp only [Store.read]
  split
  · exact .refl _
  · exact Store.kept_readList p ws st

theorem Store.readList_of_clean {st : Store} (h : st.ramErrors = []) (p : Place) (b : Bool) (ws : List Nat) :
    Store.readList p b ws st = (st, .content) := by
  induction ws with
  | nil => rfl
  | cons w rest ih => simp only [Store.readList, h, Table.get_nil, ih]

/-- With no error in the RAM, a read changes nothing: it answers content, or that the flag stands. -/
theorem Store.read_of_clean {st : Store} (h : st.ramErrors = []) (p : Place) (ws : List Nat) (b : Bool) :
    st.read p ws b = (st, if st.isDamaged p then .damaged else .content) := by
  simp only [Store.read]
  split
  · rfl
  · exact Store.readList_of_clean h p b ws

theorem Place.name_cell_ne_slot (t x : Nat) (k : Kind) {i : Nat} (hi : i < 65536) :
    (Place.slot k i).name ≠ (Place.cell t x).name := by
  have : k.code ≤ 8 := by cases k <;> decide
  simp only [Place.name, Place.kindCode, Place.index]
  omega

theorem Store.kept_writeCells (st : Store) (t : Nat) (xs : List Nat) (f : Nat → Cell) : st.Kept (st.writeCells t xs f) := by
  induction xs generalizing st with
  | nil => exact .refl _
  | cons x rest ih =>
    refine Store.Kept.trans ?_ (ih _)
    refine ⟨rfl, rfl, rfl, rfl, rfl, rfl, rfl, rfl, rfl, rfl, rfl, rfl, fun k i hi h => ?_, Nat.le_refl _, fun _ h => h, fun h => h⟩
    have hn := Place.name_cell_ne_slot t x k hi
    simpa [Store.isDamaged, Store.setDamaged, Store.writeWords, Table.get_set_ne _ _ _ hn] using h

theorem Store.kept_emptyCells (st : Store) (t : Nat) (xs : List Nat) : st.Kept (st.emptyCells t xs) :=
  st.kept_writeCells t xs _

/-! ### Changes of one block. -/

theorem State.Kept.of_store {s : State} {st : Store} (h : s.store.Kept st) : s.Kept { s with store := st } :=
  ⟨h, rfl, .refl _, rfl, rfl, .refl _, rfl, rfl, .refl _, .refl _, .refl _, rfl, rfl⟩

theorem State.Kept.of_routes {s : State} {r : Routes} (h : s.routes.Kept r) : s.Kept { s with routes := r } :=
  ⟨.refl _, rfl, h, rfl, rfl, .refl _, rfl, rfl, .refl _, .refl _, .refl _, rfl, rfl⟩

theorem State.Kept.of_muster {s : State} {m : Muster} (h : s.muster.Kept m) : s.Kept { s with muster := m } :=
  ⟨.refl _, rfl, .refl _, rfl, rfl, h, rfl, rfl, .refl _, .refl _, .refl _, rfl, rfl⟩

theorem State.Kept.of_scr {s : State} {c : ScreenChannel} (h : s.scr.Kept c) : s.Kept { s with scr := c } :=
  ⟨.refl _, rfl, .refl _, rfl, rfl, .refl _, rfl, rfl, h, .refl _, .refl _, rfl, rfl⟩

theorem State.Kept.of_tag {s : State} {c : TagChannel} (h : s.tag.Kept c) : s.Kept { s with tag := c } :=
  ⟨.refl _, rfl, .refl _, rfl, rfl, .refl _, rfl, rfl, .refl _, h, .refl _, rfl, rfl⟩

theorem State.Kept.of_port {s : State} {p : Port} (h : s.port.Kept p) : s.Kept { s with port := p } :=
  ⟨.refl _, rfl, .refl _, rfl, rfl, .refl _, rfl, rfl, .refl _, .refl _, h, rfl, rfl⟩

theorem State.Kept.of_composer (s : State) (c : Composer) : s.Kept { s with composer := c } :=
  ⟨.refl _, rfl, .refl _, rfl, rfl, .refl _, rfl, rfl, .refl _, .refl _, .refl _, rfl, rfl⟩

/-- A latched flag stays latched when another is raised (R184). -/
theorem Port.kept_raise (n : Notice) (p : Port) : p.Kept (p.raise n) :=
  ⟨rfl, rfl, rfl, rfl, rfl, rfl, fun i h => by simp [Port.raise, h]⟩

theorem State.kept_notice (n : Notice) (s : State) : s.Kept (s.notice n) := State.Kept.of_port (Port.kept_raise n _)

theorem Ev.kept_notice (n : Notice) (e : Ev) : e.Kept (e.notice n) := State.kept_notice n _

theorem Ev.kept_tell (t : Told) (e : Ev) : e.Kept (e.tell t) := State.Kept.refl _

/-! ### Reads. -/

theorem Ev.kept_read (p : Place) (ws : List Nat) (e : Ev) : e.Kept (e.read p ws).1 := by
  have h := e.store.kept_read p ws
  simp only [Ev.read]
  split
  · rename_i st heq
    rw [heq] at h
    exact (State.Kept.of_store h).trans (State.kept_notice _ _)
  · rename_i st r heq hr
    rw [hr] at h
    exact State.Kept.of_store h

/-- With no error in the RAM, a read changes nothing. -/
theorem Ev.read_of_clean {e : Ev} (h : e.store.ramErrors = []) (p : Place) (ws : List Nat) (b : Bool) :
    e.read p ws b = (e, if e.store.isDamaged p then .damaged else .content) := by
  simp only [Ev.read, Store.read_of_clean h]
  by_cases hd : e.store.isDamaged p <;> simp [hd]

/-- A place that a composition may read. -/
def Place.shown : Place → Bool
  | .slot .segment _ | .slot .station _ | .slot .entrance _ => false
  | _ => true

/-- An event that has done nothing but read places that compositions read. -/
inductive Ev.Reads (e : Ev) : Ev → Prop where
  | refl : Ev.Reads e e
  | read {e' : Ev} (p : Place) (hp : p.shown = true) (ws : List Nat) : Ev.Reads e e' → Ev.Reads e (e'.read p ws).1

theorem Ev.Reads.trans {a b c : Ev} (h : a.Reads b) (g : b.Reads c) : a.Reads c := by
  induction g with
  | refl => exact h
  | read p hp ws _ ih => exact .read p hp ws ih

theorem Ev.Reads.kept {e e' : Ev} (h : e.Reads e') : e.Kept e' := by
  induction h with
  | refl => exact State.Kept.refl _
  | read p _ ws _ ih => exact ih.trans (Ev.kept_read p ws _)

theorem Ev.Reads.of_clean {e e' : Ev} (h : e.Reads e') (hc : e.store.ramErrors = []) : e' = e := by
  induction h with
  | refl => rfl
  | read p _ ws _ ih => subst ih; rw [Ev.read_of_clean hc]

theorem Ev.reads_read (e : Ev) (p : Place) (ws : List Nat) (hp : p.shown = true := by rfl) : e.Reads (e.read p ws).1 :=
  .read p hp ws .refl

theorem Ev.reads_readWhole (e : Ev) (p : Place) (hp : p.shown = true := by rfl) : e.Reads (e.readWhole p).1 :=
  e.reads_read p _ hp

/-! ### Compositions only read. -/

theorem Ev.reads_phrase (bank p : Nat) (e : Ev) : e.Reads (e.phrase bank p).1 := by
  have h := e.reads_readWhole (.slot .phrase (phraseIndex bank p))
  simp only [Ev.phrase]
  split
  · exact .refl
  · split
    · exact .refl
    · split <;> rename_i heq <;> rw [heq] at h <;> exact h

theorem Ev.reads_targetName (bank t : Nat) (e : Ev) : e.Reads (e.targetName bank t).1 := by
  have h := e.reads_readWhole (.slot .target t)
  simp only [Ev.targetName]
  split
  · exact .refl
  · split <;> rename_i heq <;> rw [heq] at h
    · exact h.trans (Ev.reads_phrase _ _ _)
    · exact h

theorem Ev.reads_nodeDeck (n : Nat) (e : Ev) : e.Reads (e.nodeDeck n).1 := by
  have h := e.reads_readWhole (.slot .node n)
  simp only [Ev.nodeDeck]
  split
  · exact .refl
  · split <;> rename_i heq <;> rw [heq] at h <;> exact h

theorem Ev.reads_readCell (t x : Nat) (e : Ev) : e.Reads (e.readCell t x).1 := by
  have h := e.reads_read (.cell t x) [cellWord t x]
  simp only [Ev.readCell]
  split <;> rename_i heq <;> rw [heq] at h <;> exact h

theorem Ev.reads_routeItems (bank t x : Nat) (e : Ev) : e.Reads (e.routeItems bank t x).1 := e.reads_readCell t x

theorem Ev.reads_targetLine (bank x t : Nat) (e : Ev) : e.Reads (e.targetLine bank x t).1 :=
  (Ev.reads_targetName bank t e).trans (Ev.reads_routeItems bank t x _)

theorem Ev.reads_lines {α : Type} {f : α → Ev → Ev × List Item}
    (hf : ∀ (a : α) (e : Ev), e.Reads (f a e).1) (as : List α) (e : Ev) :
    e.Reads (Ev.lines f as e).1 := by
  induction as generalizing e with
  | nil => exact .refl
  | cons a rest ih => exact (hf a e).trans (ih _)

theorem Ev.reads_entryLines (bank k : Nat) (ps : List (Nat × ScheduleRow)) (e : Ev) :
    e.Reads (Ev.entryLines bank k ps e).1 := by
  induction ps generalizing k e with
  | nil => cases k <;> exact .refl
  | cons p rest ih =>
    cases k with
    | zero => exact .refl
    | succ k =>
      have h := e.reads_read (.slot .entry p.1) (entryTitle p.1)
      simp only [Ev.entryLines]
      split <;> rename_i heq <;> rw [heq] at h
      · exact h.trans (ih _ _)
      · exact h.trans (ih _ _)

theorem Ev.reads_ownDeck (own : Option Nat) (ps : List (Nat × ScheduleRow)) (e : Ev) : e.Reads (Ev.ownDeck own ps e).1 := by
  induction ps generalizing e with
  | nil => exact .refl
  | cons p rest ih =>
    simp only [Ev.ownDeck]
    split
    · exact ih e
    · split
      · exact ih e
      · exact (Ev.reads_nodeDeck _ e).trans (ih _)

theorem Ev.reads_filtered (f : ProgFilter) (x : Nat) (e : Ev) : e.Reads (e.filtered f x).1 := by
  cases f with
  | none => exact .refl
  | all => exact .refl
  | ownDeck => exact (Ev.reads_nodeDeck x e).trans (Ev.reads_ownDeck _ _ _)

theorem Ev.reads_readRest (ps : List (Nat × ScheduleRow)) (e : Ev) : e.Reads (Ev.readRest ps e).1 := by
  induction ps generalizing e with
  | nil => exact .refl
  | cons p rest ih =>
    have h := e.reads_read (.slot .entry p.1) (entryRest p.1)
    simp only [Ev.readRest]
    split <;> rename_i heq <;> rw [heq] at h <;> exact h.trans (ih _)

theorem Ev.reads_programmeLines (r : ScreenRec) (e : Ev) : e.Reads (e.programmeLines r).1 := by
  simp only [Ev.programmeLines]
  split
  · exact .refl
  · exact ((Ev.reads_filtered _ _ e).trans (Ev.reads_readRest _ _)).trans (Ev.reads_entryLines _ _ _ _)

theorem Ev.reads_normalScreen (r : ScreenRec) (e : Ev) : e.Reads (e.normalScreen r).1 :=
  (Ev.reads_lines (fun _ _ => Ev.reads_targetLine _ _ _ _) _ e).trans (Ev.reads_programmeLines r _)

theorem Ev.reads_stationLines (r : ScreenRec) (a : Nat) (eff : Effective) (e : Ev) : e.Reads (e.stationLines r a eff).1 := by
  have h := Ev.reads_targetName r.bank a e
  simp only [Ev.stationLines]
  split
  · exact h
  · split
    · exact h.trans (Ev.reads_routeItems r.bank a r.node _)
    · exact (h.trans (Ev.reads_targetName r.bank eff.station _)).trans (Ev.reads_routeItems r.bank eff.station r.node _)

theorem Ev.reads_musterScreen (r : ScreenRec) (e : Ev) : e.Reads (e.musterScreen r).1 := by
  simp only [Ev.musterScreen]
  split
  · exact .refl
  · split
    · exact .refl
    · exact Ev.reads_stationLines _ _ _ _

theorem Ev.reads_screenFrameOf (n : Nat) (e : Ev) : e.Reads (e.screenFrameOf n).1 := by
  have h := e.reads_readWhole (.slot .screen n)
  simp only [Ev.screenFrameOf]
  split
  · exact .refl
  · split <;> rename_i heq <;> rw [heq] at h
    · simp only
      split
      · exact h.trans (Ev.reads_normalScreen _ _)
      · exact h.trans (Ev.reads_musterScreen _ _)
    · exact h

theorem Ev.reads_tagStation (r : CabinRec) (e : Ev) : e.Reads (e.tagStation r).1 := by
  simp only [Ev.tagStation]
  split
  · exact .refl
  · split
    · exact .refl
    · exact Ev.reads_nodeDeck _ _

theorem Ev.reads_musterTag (r : CabinRec) (e : Ev) : e.Reads (e.musterTag r).1 := Ev.reads_tagStation r e

theorem Ev.reads_tagFrameOf (n : Nat) (e : Ev) : e.Reads (e.tagFrameOf n).1 := by
  have h := e.reads_read (.slot .cabin n)
    (if decide (e.mode.mode = .normal) = true then (Place.slot .cabin n).words else cabinHead n)
  simp only [Ev.tagFrameOf]
  split
  · exact .refl
  · split <;> rename_i heq <;> rw [heq] at h
    · split
      · exact h
      · exact h.trans (Ev.reads_musterTag _ _)
    · exact h

theorem Ev.reads_concerned (told : List Told) (n : Nat) (e : Ev) : e.Reads (e.concerned told n).1 := by
  have h := e.reads_readWhole (.slot .screen n)
  simp only [Ev.concerned]
  split
  · exact .refl
  · split
    · exact .refl
    · split <;> rename_i heq <;> rw [heq] at h <;> exact h

theorem Ev.reads_concernedScreens (told : List Told) (ns : List Nat) (e : Ev) :
    e.Reads (Ev.concernedScreens told ns e).1 := by
  induction ns generalizing e with
  | nil => exact .refl
  | cons n rest ih => exact (Ev.reads_concerned told n e).trans (ih _)

/-! ### The channels take a new version. -/

theorem Ev.kept_joinSend (n : Nat) (e : Ev) : e.Kept (e.joinSend n) := by
  simp only [Ev.joinSend]
  split
  · exact State.Kept.of_scr ⟨rfl, rfl, rfl, rfl, rfl, fun _ => .inl rfl⟩
  · exact State.Kept.refl _

theorem TagChannel.kept_join (n : Nat) (c : TagChannel) : c.Kept (c.join n) := by
  simp only [TagChannel.join]
  split
  · exact ⟨rfl, rfl, rfl, rfl, rfl, rfl, rfl, fun _ => .inl rfl⟩
  · exact .refl _

theorem TagChannel.kept_offer (n : Nat) (c : TagChannel) : c.Kept (c.offer n) := by
  refine ⟨rfl, rfl, rfl, rfl, rfl, rfl, ?_, fun _ => .inl rfl⟩
  simp only [TagChannel.offer, Option.map_map]
  cases c.sweep with
  | none => rfl
  | some sw => simp only [Option.map_some, Function.comp]; split <;> rfl

theorem TagChannel.kept_dirty (n : Nat) (c : TagChannel) : c.Kept (c.update n fun l => { l with dirty := true }) := by
  refine ⟨rfl, rfl, rfl, rfl, rfl, rfl, rfl, fun m => ?_⟩
  by_cases h : m = n
  · subst h
    refine .inr ?_
    simp only [TagChannel.link, TagChannel.update]
    exact Table.get_set_eq_of_ne _ _ _ (by intro h; simpa using congrArg TagLink.dirty h)
  · exact .inl (Table.get_set_ne _ _ _ h)

theorem TagChannel.kept_raised (n : Nat) (c : TagChannel) : c.Kept (c.raised n) := by
  have h := (TagChannel.kept_dirty n c).trans (TagChannel.kept_join n _)
  simp only [TagChannel.raised]
  split
  · exact h.trans (TagChannel.kept_offer n _)
  · exact h

theorem TagChannel.kept_dirtyAll (ns : List Nat) (c : TagChannel) : c.Kept (c.dirtyAll ns) := by
  induction ns generalizing c with
  | nil => exact .refl _
  | cons n rest ih => exact ((TagChannel.kept_dirty n c).trans (TagChannel.kept_join n _)).trans (ih _)

/-! ### Compositions. -/

/-- What neither a composition nor a reaction to a place that compositions read changes: stations, a computation in flight,
and, but for the STORE notice, the port. -/
structure Ev.Calm (e e' : Ev) : Prop where
  muster : e'.muster = e.muster
  engine : ∀ c, e.routes.engine = some c → e'.routes.engine = some c
  port : e'.port = e.port ∨ e'.port = e.port.raise .store

theorem Ev.Calm.refl (e : Ev) : e.Calm e := ⟨rfl, fun _ h => h, .inl rfl⟩

theorem Port.raise_raise (n : Notice) (p : Port) : (p.raise n).raise n = p.raise n := by
  simp [Port.raise, BitVec.or_assoc]

theorem Ev.Calm.trans {a b c : Ev} (h : a.Calm b) (g : b.Calm c) : a.Calm c where
  muster := g.muster.trans h.muster
  engine d hd := g.engine d (h.engine d hd)
  port := by
    rcases g.port with g' | g' <;> rcases h.port with h' | h' <;> rw [g', h']
    · exact .inl rfl
    · exact .inr rfl
    · exact .inr rfl
    · exact .inr (Port.raise_raise _ _)

theorem Ev.Calm.of_same {e e' : Ev} (hm : e'.muster = e.muster) (hr : e'.routes.engine = e.routes.engine)
    (hp : e'.port = e.port) : e.Calm e' := ⟨hm, fun _ h => hr.trans h, .inl hp⟩

/-- A read is calm, and what it may find is the place read. -/
theorem Ev.calm_read (p : Place) (ws : List Nat) (e : Ev) :
    e.Calm (e.read p ws).1 ∧ ∀ q ∈ (e.read p ws).1.found, q ∈ e.found ∨ q = p := by
  simp only [Ev.read]
  split
  · refine ⟨⟨rfl, fun _ h => h, .inr rfl⟩, fun q hq => ?_⟩
    simpa [Ev.notice, Ev.on] using hq
  · exact ⟨⟨rfl, fun _ h => h, .inl rfl⟩, fun q hq => .inl hq⟩

theorem Ev.Reads.calm {e e' : Ev} (h : e.Reads e') :
    e.Calm e' ∧ ((∀ p ∈ e.found, p.shown = true) → ∀ p ∈ e'.found, p.shown = true) := by
  induction h with
  | refl => exact ⟨.refl e, fun h => h⟩
  | @read e' p hp ws _ ih =>
    obtain ⟨hc, hf⟩ := Ev.calm_read p ws e'
    refine ⟨ih.1.trans hc, fun h q hq => ?_⟩
    rcases hf q hq with hq | hq
    · exact ih.2 h q hq
    · rw [hq]; exact hp

/-- What an event's reactions and compositions do: they keep the state; while only places that compositions read have been
found damaged they are calm; and with no error in the RAM and no finding waiting, they change nothing but the composed
contents and the two channels. -/
structure Ev.Settles (e e' : Ev) : Prop where
  kept : e.Kept e'
  calm : (∀ p ∈ e.found, p.shown = true) → e.Calm e' ∧ ∀ p ∈ e'.found, p.shown = true
  clean : e.store.ramErrors = [] → e.found = [] →
    e'.store = e.store ∧ e'.routes = e.routes ∧ e'.port = e.port ∧ e'.found = []

theorem Ev.Settles.refl (e : Ev) : e.Settles e :=
  ⟨State.Kept.refl _, fun h => ⟨.refl e, h⟩, fun _ h => ⟨rfl, rfl, rfl, h⟩⟩

theorem Ev.Settles.trans {a b c : Ev} (h : a.Settles b) (g : b.Settles c) : a.Settles c where
  kept := h.kept.trans g.kept
  calm hf := ⟨(h.calm hf).1.trans (g.calm (h.calm hf).2).1, (g.calm (h.calm hf).2).2⟩
  clean hr hf := by
    obtain ⟨h1, h2, h3, h4⟩ := h.clean hr hf
    obtain ⟨g1, g2, g3, g4⟩ := g.clean (h1 ▸ hr) h4
    exact ⟨g1.trans h1, g2.trans h2, g3.trans h3, g4⟩

/-- A change of nothing but the composed contents and the two channels. -/
theorem Ev.Settles.of_same {e e' : Ev} (hk : e.Kept e') (hs : e'.store = e.store) (hr : e'.routes = e.routes)
    (hm : e'.muster = e.muster) (hp : e'.port = e.port) (hf : e'.found = e.found) : e.Settles e' :=
  ⟨hk, fun h => ⟨.of_same hm (by rw [hr]) hp, hf ▸ h⟩, fun _ h => ⟨hs, hr, hp, hf.trans h⟩⟩

theorem Ev.Reads.settles {e e' : Ev} (h : e.Reads e') : e.Settles e' where
  kept := h.kept
  calm hf := ⟨h.calm.1, h.calm.2 hf⟩
  clean hr hf := by rw [h.of_clean hr]; exact ⟨rfl, rfl, rfl, hf⟩

theorem Ev.settles_joinSend (n : Nat) (e : Ev) : e.Settles (e.joinSend n) := by
  refine .of_same (Ev.kept_joinSend n e) ?_ ?_ ?_ ?_ ?_ <;> simp only [Ev.joinSend] <;> split <;> rfl

theorem Ev.settles_composer (e : Ev) (c : Composer) : e.Settles { e with composer := c } :=
  .of_same (State.Kept.of_composer _ _) rfl rfl rfl rfl rfl

theorem Ev.settles_composeScreen (e : Ev) (n : Nat) : e.Settles (e.composeScreen n) := by
  have h := (Ev.reads_screenFrameOf n e).settles
  simp only [Ev.composeScreen]
  split
  · rename_i heq; rw [heq] at h; exact h
  · rename_i heq
    rw [heq] at h
    split
    · exact h
    · exact h.trans ((Ev.settles_composer _ _).trans (Ev.settles_joinSend n _))

theorem Ev.settles_composeTag (e : Ev) (n : Nat) : e.Settles (e.composeTag n) := by
  have h := (Ev.reads_tagFrameOf n e).settles
  simp only [Ev.composeTag]
  split
  · exact h
  · refine h.trans ?_
    split
    · exact .of_same (State.Kept.of_composer _ _) rfl rfl rfl rfl rfl
    · exact .of_same ((State.Kept.of_composer _ _).trans (State.Kept.of_tag (TagChannel.kept_raised n _))) rfl rfl rfl rfl rfl

theorem Ev.settles_foldl {α : Type} {f : Ev → α → Ev} (hf : ∀ (e : Ev) (a : α), e.Settles (f e a)) (as : List α) (e : Ev) :
    e.Settles (as.foldl f e) := by
  induction as generalizing e with
  | nil => exact .refl e
  | cons a rest ih => exact (hf e a).trans (ih _)

theorem Ev.settles_composeAll (told : List Told) (e : Ev) : e.Settles (e.composeAll told) := by
  simp only [Ev.composeAll]
  exact ((Ev.reads_concernedScreens told _ e).settles.trans (Ev.settles_foldl Ev.settles_composeScreen _ _)).trans
    (Ev.settles_foldl Ev.settles_composeTag _ _)

theorem Ev.settles_composeTold (e : Ev) : e.Settles e.composeTold :=
  Ev.Settles.trans (b := { e with told := [] }) (.of_same (State.Kept.refl _) rfl rfl rfl rfl rfl)
    (Ev.settles_composeAll _ _)

/-! ### The Route Engine's reactions. -/

theorem Routes.col_setCol_stale (t c : Nat) (r : Routes) : (r.setCol t .stale).col c = if c = t then .stale else r.col c := by
  by_cases h : c = t
  · subst h
    simp [Routes.col, Routes.setCol, Table.get_set_eq_of_ne]
  · simp [Routes.col, Routes.setCol, Table.get_set_ne _ _ _ h, h]

theorem Routes.col_takeHead (r : Routes) (c : Nat) : r.takeHead.col c = r.col c := by
  simp only [Routes.takeHead]; split <;> rfl

theorem Routes.col_enqueue (m : Mode) (t : Nat) (r : Routes) (c : Nat) : (r.enqueue m t).col c = r.col c := by
  simp only [Routes.enqueue]; split <;> rfl

theorem Routes.col_kick (r : Routes) (c : Nat) : r.kick.col c = r.col c := by
  simp only [Routes.kick]; split
  · exact r.col_takeHead c
  · rfl

/-- Joining the queue changes no column's state. -/
theorem Routes.col_join (m : Mode) (t : Nat) (r : Routes) (c : Nat) : (r.join m t).col c = r.col c := by
  simp only [Routes.join]; split
  · rfl
  · rw [Routes.col_kick, Routes.col_enqueue]

theorem Routes.engine_enqueue (m : Mode) (t : Nat) (r : Routes) : (r.enqueue m t).engine = r.engine := by
  simp only [Routes.enqueue]; split <;> rfl

/-- Joining the queue leaves a computation in flight as it is (R50, R52). -/
theorem Routes.engine_join {r : Routes} {c : Computation} (m : Mode) (t : Nat) (h : r.engine = some c) :
    (r.join m t).engine = some c := by
  simp only [Routes.join]; split
  · exact h
  · simp only [Routes.kick, Routes.engine_enqueue, h, Option.isNone_some, Bool.false_eq_true, if_false]

theorem Routes.kept_mark {r : Routes} (m : Mode) (t : Nat) (h : r.col t ≠ .empty) : r.Kept ((r.setCol t .stale).join m t) where
  col c := by
    rw [Routes.col_join, Routes.col_setCol_stale]
    by_cases hc : c = t
    · subst hc; exact .inr ⟨h, by simp⟩
    · exact .inl (by simp [hc])
  engine c hc := ⟨c.overtaken, Routes.engine_join m t hc⟩

theorem Ev.kept_markColumn {t : Nat} {e : Ev} (h : e.routes.col t ≠ .empty) : e.Kept (e.markColumn t) := by
  simp only [Ev.markColumn]
  split <;> exact State.Kept.of_routes (Routes.kept_mark _ _ h)

/-- Marking one column leaves no other one EMPTY that was not. -/
theorem Ev.col_markColumn (t : Nat) (e : Ev) (c : Nat) :
    (e.markColumn t).routes.col c = if c = t then .stale else e.routes.col c := by
  simp only [Ev.markColumn]
  split <;> simp only [Ev.onRoutes, Ev.tell, Routes.col_join, Routes.col_setCol_stale]

theorem Ev.kept_markList (ts : List Nat) (e : Ev) (h : ∀ t ∈ ts, e.routes.col t ≠ .empty) :
    e.Kept (ts.foldl (fun e t => e.markColumn t) e) := by
  induction ts generalizing e with
  | nil => exact State.Kept.refl _
  | cons t rest ih =>
    refine (Ev.kept_markColumn (h t (by simp))).trans (ih _ fun c hc => ?_)
    rw [Ev.col_markColumn]
    split
    · decide
    · exact h c (by simp [hc])

theorem Ev.kept_markAll (e : Ev) : e.Kept e.markAll :=
  Ev.kept_markList _ e fun t ht => by simpa [Routes.presentColumns] using (List.mem_filter.1 ht).2

theorem Routes.kept_overtake (r : Routes) : r.Kept r.overtake :=
  ⟨fun _ => .inl rfl, fun c hc => ⟨true, by simp [Routes.overtake, hc]⟩⟩

theorem Ev.kept_graphChanged (e : Ev) : e.Kept e.graphChanged :=
  State.Kept.trans (b := (e.onRoutes Routes.overtake).toState) (State.Kept.of_routes (Routes.kept_overtake _))
    (Ev.kept_markAll _)

theorem Ev.kept_readCellFor (t : Nat) (p : Ev × List Nat) (x : Nat) : p.1.Kept (Ev.readCellFor t p x).1 := by
  have h := p.1.store.kept_read (.cell t x) [cellWord t x]
  simp only [Ev.readCellFor]
  split <;> rename_i heq <;> rw [heq] at h
  · exact State.Kept.of_store h
  · exact State.Kept.of_store h
  · exact (State.Kept.of_store h).trans (State.kept_notice _ _)

theorem Ev.kept_readCells (t : Nat) (xs : List Nat) (p : Ev × List Nat) :
    p.1.Kept (xs.foldl (Ev.readCellFor t) p).1 := by
  induction xs generalizing p with
  | nil => exact State.Kept.refl _
  | cons x rest ih => exact (Ev.kept_readCellFor t p x).trans (ih _)

/-- A column that is not EMPTY does not become EMPTY. -/
theorem State.Kept.col_ne {a b : State} (h : a.Kept b) {t : Nat} (hc : a.routes.col t ≠ .empty) :
    b.routes.col t ≠ .empty := by
  rcases h.routes.col t with h' | ⟨_, h'⟩ <;> rw [h']
  · exact hc
  · decide

theorem Ev.kept_onStore {f : Store → Store} (hf : ∀ st : Store, st.Kept (f st)) (e : Ev) : e.Kept (e.onStore f) :=
  State.Kept.of_store (hf _)

theorem Ev.kept_withdrawColumn (g : Graph) (bad : List Nat) (broken : BrokenHops) (t : Nat) (e : Ev) :
    e.Kept (e.withdrawColumn g bad broken t) := by
  simp only [Ev.withdrawColumn]
  split
  · exact State.Kept.refl _
  · rename_i hc
    have h := Ev.kept_readCells t (e.store.presentCells t) (e, [])
    generalize (e.store.presentCells t).foldl (Ev.readCellFor t) (e, []) = q at h ⊢
    obtain ⟨e1, found⟩ := q
    simp only at h ⊢
    have h2 := h.trans (Ev.kept_onStore (f := fun st => st.emptyCells t
      ((e.store.presentCells t).filter (chainBroken e1.store g t ((g.targetNode t).getD Config.nodes) (bad ++ found) broken
        Config.nodes))) (fun st => Store.kept_emptyCells st _ _) e1)
    split
    · split
      · exact h2
      · exact h2.trans (Ev.kept_tell _ _)
    · split
      · exact h2.trans (Ev.kept_markColumn (h2.col_ne hc))
      · exact (h2.trans (Ev.kept_tell _ _)).trans (Ev.kept_markColumn (h2.col_ne hc))

theorem Ev.kept_foldl {α : Type} {f : Ev → α → Ev} (hf : ∀ (e : Ev) (a : α), e.Kept (f e a)) (as : List α) (e : Ev) :
    e.Kept (as.foldl f e) := by
  induction as generalizing e with
  | nil => exact State.Kept.refl _
  | cons a rest ih => exact (hf e a).trans (ih _)

theorem Ev.kept_withdraw (g : Graph) (broken : BrokenHops) (e : Ev) : e.Kept (e.withdraw g broken) :=
  Ev.kept_foldl (fun e t => Ev.kept_withdrawColumn g [] broken t e) _ e

theorem Ev.kept_segmentDamaged (s : Nat) (e : Ev) : e.Kept (e.segmentDamaged s) :=
  ((Ev.kept_withdraw _ _ _).trans (Ev.kept_graphChanged _)).trans (Ev.kept_tell _ _)

theorem Ev.kept_cellDamaged (t x : Nat) (e : Ev) : e.Kept (e.cellDamaged t x) := by
  have h := (Ev.kept_withdrawColumn e.graph [x] (fun _ _ _ => false) t e).trans
    (Ev.kept_onStore (f := fun st => st.emptyCells t [x]) (fun st => Store.kept_emptyCells st _ _) _)
  simp only [Ev.cellDamaged]
  split
  · exact h
  · rename_i hc
    exact (h.trans (Ev.kept_tell _ _)).trans (Ev.kept_markColumn (e := Ev.tell _ _) hc)

/-! ### The Muster Unit's reaction. -/

theorem Muster.kept_setLamp (l : Nat) (p : Lamp) (m : Muster) : m.Kept (m.setLamp l p) :=
  ⟨rfl, rfl, rfl, rfl, rfl, rfl, rfl, fun _ => .inl rfl⟩

theorem Ev.kept_resolveOne (e : Ev) (n : Nat) : e.Kept (e.resolveOne n) := by
  simp only [Ev.resolveOne]
  split
  · exact State.Kept.refl _
  · exact State.Kept.of_muster ⟨rfl, rfl, rfl, rfl, rfl, rfl, rfl, fun _ => .inl rfl⟩

theorem Ev.kept_resolve (e : Ev) : e.Kept e.resolve := Ev.kept_foldl Ev.kept_resolveOne _ e

theorem Muster.kept_unsafe (n : Nat) (m : Muster) : m.Kept (m.setLive n { m.live n with state := .notSafe }) where
  stationSettings := rfl
  entranceSettings := rfl
  beams := rfl
  decoders := rfl
  roster := rfl
  session := rfl
  roll := rfl
  live k := by
    by_cases h : k = n
    · subst h
      exact .inr (Table.get_set_eq_of_ne _ _ _ (by intro h; simpa using congrArg StationLive.state h))
    · exact .inl (Table.get_set_ne _ _ _ h)

theorem Ev.kept_changeState_unsafe (n : Nat) (e : Ev) : e.Kept (e.changeState n .notSafe) := by
  simp only [Ev.changeState]
  split
  · exact State.Kept.refl _
  · refine State.Kept.trans (State.Kept.of_muster ?_) (State.kept_notice _ _)
    have h := Muster.kept_unsafe n e.muster
    simp only [reduceCtorEq, false_and, if_false]
    split
    · exact h
    · exact h.trans (Muster.kept_setLamp _ _ _)

theorem Ev.kept_stationDamaged (n : Nat) (e : Ev) : e.Kept (e.stationDamaged n) := by
  simp only [Ev.stationDamaged, Ev.setStationState]
  split
  · split
    · exact State.Kept.refl _
    · exact (Ev.kept_changeState_unsafe n e).trans (Ev.kept_resolve _)
  · exact State.Kept.refl _

/-! ### The Composer's reaction to a damaged screen. -/

theorem ScreenChannel.kept_pause (n : Nat) (c : ScreenChannel) :
    c.Kept { (c.update n fun l => { l with paused := true }).leaveQueue n with probeDue := c.probeDue.filter (· ≠ n) } where
  transfer := rfl
  reply := rfl
  kioskPtr := rfl
  lastFrame := rfl
  silent := rfl
  link m := by
    by_cases h : m = n
    · subst h
      exact .inr (Table.get_set_eq_of_ne _ _ _ (by intro h; simpa using congrArg ScreenLink.paused h))
    · exact .inl (Table.get_set_ne _ _ _ h)

theorem Ev.kept_pauseScreen (n : Nat) (e : Ev) : e.Kept (e.pauseScreen n) :=
  State.Kept.of_scr (ScreenChannel.kept_pause n _)

/-! ### Reactions and settling. -/

theorem Ev.kept_react (e : Ev) (p : Place) : e.Kept (e.react p) := by
  simp only [Ev.react]
  split
  · exact State.Kept.refl _
  · split
    · exact Ev.kept_segmentDamaged _ _
    · exact Ev.kept_cellDamaged _ _ _
    · exact Ev.kept_tell _ _
    · exact Ev.kept_tell _ _
    · exact Ev.kept_stationDamaged _ _
    · exact Ev.kept_notice _ _
    · exact Ev.kept_tell _ _
    · exact Ev.kept_tell _ _
    · exact Ev.kept_pauseScreen _ _
    · exact Ev.kept_tell _ _

/-! ### Reactions to the places that compositions read are calm. -/

theorem Ev.calm_foldl {α : Type} {f : Ev → α → Ev} (hf : ∀ (e : Ev) (a : α), e.Calm (f e a)) (as : List α) (e : Ev) :
    e.Calm (as.foldl f e) := by
  induction as generalizing e with
  | nil => exact .refl e
  | cons a rest ih => exact (hf e a).trans (ih _)

theorem Ev.calm_onStore (f : Store → Store) (e : Ev) : e.Calm (e.onStore f) := .of_same rfl rfl rfl

theorem Ev.calm_tell (t : Told) (e : Ev) : e.Calm (e.tell t) := .of_same rfl rfl rfl

theorem Ev.calm_markColumn (t : Nat) (e : Ev) : e.Calm (e.markColumn t) := by
  simp only [Ev.markColumn]
  split <;> exact ⟨rfl, fun c hc => Routes.engine_join _ _ hc, .inl rfl⟩

theorem Ev.calm_readCellFor (t : Nat) (p : Ev × List Nat) (x : Nat) : p.1.Calm (Ev.readCellFor t p x).1 := by
  simp only [Ev.readCellFor]
  split
  · exact .of_same rfl rfl rfl
  · exact .of_same rfl rfl rfl
  · exact ⟨rfl, fun _ h => h, .inr rfl⟩

theorem Ev.calm_readCells (t : Nat) (xs : List Nat) (p : Ev × List Nat) :
    p.1.Calm (xs.foldl (Ev.readCellFor t) p).1 := by
  induction xs generalizing p with
  | nil => exact .refl _
  | cons x rest ih => exact (Ev.calm_readCellFor t p x).trans (ih _)

theorem Ev.calm_withdrawColumn (g : Graph) (bad : List Nat) (broken : BrokenHops) (t : Nat) (e : Ev) :
    e.Calm (e.withdrawColumn g bad broken t) := by
  simp only [Ev.withdrawColumn]
  split
  · exact .refl e
  · have h := Ev.calm_readCells t (e.store.presentCells t) (e, [])
    generalize (e.store.presentCells t).foldl (Ev.readCellFor t) (e, []) = q at h ⊢
    obtain ⟨e1, found⟩ := q
    simp only at h ⊢
    refine h.trans ?_
    split <;> split
    · exact Ev.calm_onStore _ _
    · exact (Ev.calm_onStore _ _).trans (Ev.calm_tell _ _)
    · exact (Ev.calm_onStore _ _).trans (Ev.calm_markColumn _ _)
    · exact ((Ev.calm_onStore _ _).trans (Ev.calm_tell _ _)).trans (Ev.calm_markColumn _ _)

theorem Ev.calm_withdraw (g : Graph) (broken : BrokenHops) (e : Ev) : e.Calm (e.withdraw g broken) :=
  Ev.calm_foldl (fun e t => Ev.calm_withdrawColumn g [] broken t e) _ e

theorem Ev.calm_cellDamaged (t x : Nat) (e : Ev) : e.Calm (e.cellDamaged t x) := by
  have h := Ev.calm_withdrawColumn e.graph [x] (fun _ _ _ => false) t e
  simp only [Ev.cellDamaged]
  split
  · exact h.trans (Ev.calm_onStore _ _)
  · exact ((h.trans (Ev.calm_onStore _ _)).trans (Ev.calm_tell _ _)).trans (Ev.calm_markColumn _ _)

theorem Ev.calm_react (e : Ev) (p : Place) (hp : p.shown = true) : e.Calm (e.react p) := by
  simp only [Ev.react]
  split
  · exact .refl e
  · split
    · exact absurd hp Bool.false_ne_true
    · exact Ev.calm_cellDamaged _ _ _
    · exact .of_same rfl rfl rfl
    · exact .of_same rfl rfl rfl
    · exact absurd hp Bool.false_ne_true
    · exact absurd hp Bool.false_ne_true
    · exact .of_same rfl rfl rfl
    · exact .of_same rfl rfl rfl
    · exact .of_same rfl rfl rfl
    · exact .of_same rfl rfl rfl

theorem Ev.calm_reactList (ps : List Place) (e : Ev) (h : ∀ p ∈ ps, p.shown = true) : e.Calm (ps.foldl Ev.react e) := by
  induction ps generalizing e with
  | nil => exact .refl e
  | cons p rest ih => exact (Ev.calm_react e p (h p (by simp))).trans (ih _ fun q hq => h q (by simp [hq]))

/-! ### A reaction leaves no finding behind. -/

theorem Ev.found_readCellFor (t : Nat) (p : Ev × List Nat) (x : Nat) : (Ev.readCellFor t p x).1.found = p.1.found := by
  simp only [Ev.readCellFor]
  split <;> rfl

theorem Ev.found_readCells (t : Nat) (xs : List Nat) (p : Ev × List Nat) :
    (xs.foldl (Ev.readCellFor t) p).1.found = p.1.found := by
  induction xs generalizing p with
  | nil => rfl
  | cons x rest ih => rw [List.foldl_cons, ih, Ev.found_readCellFor]

theorem Ev.found_foldl {α : Type} {f : Ev → α → Ev} (hf : ∀ (e : Ev) (a : α), (f e a).found = e.found) (as : List α)
    (e : Ev) : (as.foldl f e).found = e.found := by
  induction as generalizing e with
  | nil => rfl
  | cons a rest ih => rw [List.foldl_cons, ih, hf]

theorem Ev.found_markColumn (t : Nat) (e : Ev) : (e.markColumn t).found = e.found := by
  simp only [Ev.markColumn]; split <;> rfl

theorem Ev.found_withdrawColumn (g : Graph) (bad : List Nat) (broken : BrokenHops) (t : Nat) (e : Ev) :
    (e.withdrawColumn g bad broken t).found = e.found := by
  simp only [Ev.withdrawColumn]
  split
  · rfl
  · have h := Ev.found_readCells t (e.store.presentCells t) (e, [])
    generalize (e.store.presentCells t).foldl (Ev.readCellFor t) (e, []) = q at h ⊢
    obtain ⟨e1, found⟩ := q
    simp only at h ⊢
    rw [← h]
    split <;> split <;> first | rfl | rw [Ev.found_markColumn]; rfl

theorem Ev.found_withdraw (g : Graph) (broken : BrokenHops) (e : Ev) : (e.withdraw g broken).found = e.found :=
  Ev.found_foldl (fun e t => Ev.found_withdrawColumn g [] broken t e) _ e

theorem Ev.found_markAll (e : Ev) : e.markAll.found = e.found := Ev.found_foldl (fun e t => Ev.found_markColumn t e) _ e

theorem Ev.found_graphChanged (e : Ev) : e.graphChanged.found = e.found := Ev.found_markAll _

theorem Ev.found_segmentDamaged (s : Nat) (e : Ev) : (e.segmentDamaged s).found = e.found := by
  simp only [Ev.segmentDamaged, Ev.tell]
  rw [Ev.found_graphChanged, Ev.found_withdraw]

theorem Ev.found_cellDamaged (t x : Nat) (e : Ev) : (e.cellDamaged t x).found = e.found := by
  simp only [Ev.cellDamaged]
  split
  · exact Ev.found_withdrawColumn _ _ _ _ _
  · rw [Ev.found_markColumn]; exact Ev.found_withdrawColumn _ _ _ _ _

theorem Ev.found_resolveOne (e : Ev) (n : Nat) : (e.resolveOne n).found = e.found := by
  simp only [Ev.resolveOne]; split <;> rfl

theorem Ev.found_resolve (e : Ev) : e.resolve.found = e.found := Ev.found_foldl Ev.found_resolveOne _ e

theorem Ev.found_changeState (n : Nat) (new : StationState) (e : Ev) : (e.changeState n new).found = e.found := by
  simp only [Ev.changeState]
  split
  · rfl
  · simp only [Ev.notice, Ev.on, Ev.onMuster]

theorem Ev.found_setStationState (n : Nat) (new : StationState) (e : Ev) : (e.setStationState n new).found = e.found := by
  simp only [Ev.setStationState]
  split
  · rfl
  · rw [Ev.found_resolve, Ev.found_changeState]

theorem Ev.found_react (e : Ev) (p : Place) : (e.react p).found = e.found := by
  simp only [Ev.react]
  split
  · rfl
  · split
    · exact Ev.found_segmentDamaged _ _
    · exact Ev.found_cellDamaged _ _ _
    · rfl
    · rfl
    · simp only [Ev.stationDamaged]
      split
      · exact Ev.found_setStationState _ _ _
      · rfl
    · rfl
    · rfl
    · rfl
    · rfl
    · rfl

theorem Ev.found_reactAll (e : Ev) : e.reactAll.found = [] := Ev.found_foldl Ev.found_react e.found { e with found := [] }

/-! ### Settling. -/

theorem Ev.settles_reactAll (e : Ev) : e.Settles e.reactAll where
  kept := (State.Kept.refl _).trans (Ev.kept_foldl Ev.kept_react e.found { e with found := [] })
  calm hf :=
    ⟨.trans (b := { e with found := [] }) (.of_same rfl rfl rfl) (Ev.calm_reactList e.found _ hf),
      by rw [Ev.found_reactAll]; simp⟩
  clean _ hf := by simp only [Ev.reactAll, hf, List.foldl_nil, and_self]

theorem Ev.settles_settleRounds (k : Nat) (e : Ev) : e.Settles (Ev.settleRounds k e) := by
  induction k generalizing e with
  | zero => exact .refl e
  | succ k ih =>
    simp only [Ev.settleRounds]
    split
    · exact .refl e
    · exact ((Ev.settles_reactAll e).trans (Ev.settles_composeTold _)).trans (ih _)

theorem Ev.settles_settle (e : Ev) : e.Settles e.settle := Ev.settles_settleRounds _ e

/-- Settling an event that has found nothing and told nothing changes nothing. -/
theorem Ev.settle_of_quiet {e : Ev} (hf : e.found = []) (ht : e.told = []) : e.settle = e := by
  simp [Ev.settle, Ev.settleRounds, hf, ht]

theorem Ev.finish_of_quiet {e : Ev} (hf : e.found = []) (ht : e.told = []) : e.finish = e.toState := by
  rw [Ev.finish, Ev.settle_of_quiet hf ht]

/-- What the end of an event keeps. -/
theorem Ev.kept_finish (e : Ev) : e.toState.Kept e.finish := (Ev.settles_settle e).kept

/-- The end of an event that has found nothing settles it. -/
theorem Ev.settled_finish {e : Ev} (hf : e.found = []) : e.toState.Settled e.finish where
  kept := e.kept_finish
  muster := ((Ev.settles_settle e).calm (by simp [hf])).1.muster
  engine := ((Ev.settles_settle e).calm (by simp [hf])).1.engine
  port := ((Ev.settles_settle e).calm (by simp [hf])).1.port
  clean hr := by
    obtain ⟨h1, h2, h3, _⟩ := (Ev.settles_settle e).clean hr hf
    exact ⟨h1, h2, h3⟩

end Sys2Proof.Machine
end

