-- ==== Sys2Proof/Laws/PerInstr.lean ====
section
/-! SUPPORT. What the decoder gives is well formed: every command that a select's bytes or a panel's frame spell has operands
that fit their forms. Stated of each command, and proved once for all of them. -/

namespace Sys2Proof

/-- Every value that a reader gives satisfies `p`. -/
def Reader.Gives {α : Type} (r : Reader α) (p : α → Prop) : Prop := ∀ bytes a rest, r bytes = some (a, rest) → p a

theorem Reader.gives_pure {α : Type} {p : α → Prop} {a : α} (h : p a) : Reader.Gives (pure a) p := by
  intro bytes x rest e
  cases e
  exact h

/-- A reader that goes on with what another gave. -/
theorem Reader.gives_bind {α β : Type} {r : Reader α} {f : α → Reader β} {p : α → Prop} {q : β → Prop}
    (hr : r.Gives p) (hf : ∀ a, p a → (f a).Gives q) : Reader.Gives (r >>= f) q := by
  intro bytes b rest e
  cases h : r bytes with
  | none => simp [bind, StateT.bind, h] at e
  | some x =>
    have e' : f x.1 x.2 = some (b, rest) := by simpa [bind, StateT.bind, h] using e
    exact hf x.1 (hr bytes x.1 x.2 h) x.2 b rest e'

theorem Reader.gives_none {α : Type} {p : α → Prop} : Reader.Gives (StateT.lift none : Reader α) p := by
  intro bytes a rest e
  cases e

theorem Reader.gives_num1 : Reader.Gives Reader.num1 (· < 256) := by
  intro bytes a rest e
  cases bytes with
  | nil => cases e
  | cons b more =>
    cases e
    exact b.isLt

theorem Reader.gives_num2 : Reader.Gives Reader.num2 (· < 65536) :=
  gives_bind gives_num1 fun _ ha => gives_bind gives_num1 fun _ hb => gives_pure (by omega)

theorem Reader.gives_num3 : Reader.Gives Reader.num3 (· < 16777216) :=
  gives_bind gives_num1 fun _ ha => gives_bind gives_num2 fun _ hb => gives_pure (by omega)

theorem optional_all {n k : Nat} (h : n < k + 1) : (optional k n).all (· < k) = true := by
  unfold optional
  split
  · rfl
  · simp only [Option.all_some, decide_eq_true_eq]
    omega

theorem Reader.gives_opt1 : Reader.Gives Reader.opt1 (fitsOpt1 · = true) :=
  gives_bind gives_num1 fun _ h => gives_pure (optional_all h)

theorem Reader.gives_opt2 : Reader.Gives Reader.opt2 (fitsOpt2 · = true) :=
  gives_bind gives_num2 fun _ h => gives_pure (optional_all h)

theorem Reader.gives_opt3 : Reader.Gives Reader.opt3 (fitsOpt3 · = true) :=
  gives_bind gives_num3 fun _ h => gives_pure (optional_all h)

theorem Reader.gives_revision : Reader.Gives Reader.revision (fitsRev · = true) := by
  refine gives_bind gives_num1 fun a _ => ?_
  split
  · exact gives_pure rfl
  · exact gives_bind gives_num1 fun _ h => gives_pure (by simpa [fitsRev] using h)
  · exact gives_none

theorem Reader.gives_times {α : Type} {r : Reader α} {p : α → Prop} (hr : r.Gives p) (n : Nat) :
    Reader.Gives (Reader.times r n) fun l => l.length = n ∧ ∀ a ∈ l, p a := by
  induction n with
  | zero => exact gives_pure ⟨rfl, by simp⟩
  | succ n ih =>
    refine gives_bind hr fun a ha => gives_bind ih fun l hl => gives_pure ⟨by simp [hl.1], ?_⟩
    simpa using ⟨ha, hl.2⟩

theorem Reader.gives_text : Reader.Gives Reader.text (fitsText · = true) := by
  refine gives_bind gives_num1 fun n hn bytes t rest e => ?_
  have h := gives_times (r := Reader.char) (p := fun _ => True) (fun _ _ _ _ => trivial) n bytes t rest e
  simp only [fitsText, h.1, decide_eq_true_eq]
  exact hn

theorem Reader.gives_list1 : Reader.Gives Reader.list1 fun l => l.length < 256 ∧ l.all fits1 = true := by
  refine gives_bind gives_num1 fun n hn bytes l rest e => ?_
  have h := gives_times gives_num1 n bytes l rest e
  exact ⟨by omega, by simpa [fits1] using h.2⟩

theorem Reader.gives_named {α : Type} {r : Reader α} {p : α → Bool} (m i : Nat) (hr : r.Gives (p · = true)) :
    Reader.Gives (Reader.named m i r) fun o => (m.testBit i = o.isSome) ∧ o.all p = true := by
  unfold Reader.named
  split
  · rename_i hb
    exact gives_bind hr fun a ha => gives_pure ⟨by simpa using hb, by simpa using ha⟩
  · rename_i hb
    exact gives_pure ⟨by simpa using hb, rfl⟩

theorem Reader.gives_ifAny {α : Type} {r : Reader α} {p : α → Bool} (hr : r.Gives (p · = true)) :
    Reader.Gives (Reader.ifAny r) (·.all p = true) := by
  intro bytes a rest e
  cases bytes with
  | nil => cases e; rfl
  | cons b more =>
    simp only [Reader.ifAny, Option.map_eq_some_iff] at e
    obtain ⟨x, hx, e⟩ := e
    cases e
    simpa using hr _ _ _ hx

/-- An optional field that stands for absent both ways. -/
theorem Reader.gives_joined {r : Reader (Option (Option Nat))} (hr : r.Gives (·.all fitsOpt1 = true))
    {α : Type} {f : Option Nat → Reader α} {p : α → Prop} (hf : ∀ o, fitsOpt1 o = true → (f o).Gives p) :
    Reader.Gives (r >>= fun o => f o.join) p :=
  gives_bind hr fun o h => hf _ (by cases o with
    | none => rfl
    | some o => simpa using h)

/-- What a payload decodes to satisfies what its reader's values do. -/
theorem Reader.payload_all {α : Type} {r : Reader α} {p : α → Bool} (hr : r.Gives (p · = true)) (bytes : List Byte) :
    (r.payload bytes).all p = true := by
  unfold Reader.payload
  split
  · rename_i h
    exact hr _ _ _ h
  · rfl

theorem Reader.gives_fits1 : Reader.Gives Reader.num1 (fits1 · = true) := fun b a r e => by
  simpa [fits1] using gives_num1 b a r e

theorem Reader.gives_fits2 : Reader.Gives Reader.num2 (fits2 · = true) := fun b a r e => by
  simpa [fits2] using gives_num2 b a r e

theorem Reader.gives_fits3 : Reader.Gives Reader.num3 (fits3 · = true) := fun b a r e => by
  simpa [fits3] using gives_num3 b a r e

theorem Reader.gives_greeting : Reader.Gives Reader.greeting (fitsGreeting · = true) :=
  gives_bind gives_text fun _ h1 => gives_bind gives_opt3 fun _ h2 => gives_pure (by simp [fitsGreeting, h1, h2])

theorem Reader.gives_mask (bits : Nat) : Reader.Gives (Reader.mask bits) fun m => m ≠ 0 ∧ m < 2 ^ bits := by
  refine gives_bind gives_num1 fun m _ => ?_
  split
  · exact gives_none
  · rename_i h
    exact gives_pure (by omega)

/-! ### The requests' fields. -/

theorem Reader.gives_recordName : Reader.Gives Reader.recordName (RecordName.wf · = true) :=
  gives_bind gives_fits1 fun _ h0 => gives_bind gives_fits2 fun _ h1 =>
    gives_pure (by simp [RecordName.wf, h0, h1])

theorem Reader.gives_slot1 : Reader.Gives Reader.slot1 (SlotArg.fitsByte · = true) :=
  gives_bind gives_fits1 fun _ h0 => gives_bind gives_revision fun _ h1 =>
    gives_pure (by simp [SlotArg.fitsByte, h0, h1])

theorem Reader.gives_slot2 : Reader.Gives Reader.slot2 (SlotArg.fitsWord · = true) :=
  gives_bind gives_fits2 fun _ h0 => gives_bind gives_revision fun _ h1 =>
    gives_pure (by simp [SlotArg.fitsWord, h0, h1])

theorem Reader.gives_putNode : Reader.Gives Reader.putNode (PutNode.wf · = true) :=
  gives_bind gives_fits1 fun _ h0 => gives_bind gives_revision fun _ h1 => gives_bind gives_fits1 fun _ h2 =>
    gives_pure (by simp [PutNode.wf, h0, h1, h2])

theorem Reader.gives_putSegment : Reader.Gives Reader.putSegment (PutSegment.wf · = true) :=
  gives_bind gives_fits2 fun _ h0 => gives_bind gives_revision fun _ h1 => gives_bind gives_fits1 fun _ h2 =>
  gives_bind gives_fits1 fun _ h3 => gives_bind gives_fits1 fun _ h4 => gives_bind gives_fits1 fun _ h5 =>
  gives_bind gives_fits1 fun _ h6 => gives_bind gives_fits1 fun _ h7 => gives_bind gives_fits1 fun _ h8 =>
  gives_bind gives_fits1 fun _ h9 =>
    gives_pure (by simp [PutSegment.wf, h0, h1, h2, h3, h4, h5, h6, h7, h8, h9])

theorem Reader.gives_setSegmentState : Reader.Gives Reader.setSegmentState (SetSegmentState.wf · = true) :=
  gives_bind gives_fits2 fun _ h0 => gives_bind gives_revision fun _ h1 => gives_bind gives_fits1 fun _ h2 =>
    gives_pure (by simp [SetSegmentState.wf, h0, h1, h2])

theorem Reader.gives_putTarget : Reader.Gives Reader.putTarget (PutTarget.wf · = true) :=
  gives_bind gives_fits1 fun _ h0 => gives_bind gives_revision fun _ h1 => gives_bind gives_fits1 fun _ h2 =>
  gives_bind gives_fits1 fun _ h3 => gives_bind gives_fits1 fun _ h4 =>
    gives_pure (by simp [PutTarget.wf, h0, h1, h2, h3, h4])

theorem Reader.gives_lookUp : Reader.Gives Reader.lookUp (LookUp.wf · = true) :=
  gives_bind gives_fits1 fun _ h0 => gives_bind gives_fits1 fun _ h1 =>
    gives_pure (by simp [LookUp.wf, h0, h1])

theorem Reader.gives_setClock : Reader.Gives Reader.setClock (SetClock.wf · = true) :=
  gives_bind gives_fits1 fun _ h0 => gives_bind gives_fits2 fun _ h1 => gives_bind gives_fits1 fun _ h2 =>
    gives_pure (by simp [SetClock.wf, h0, h1, h2])

theorem Reader.gives_shiftClock : Reader.Gives Reader.shiftClock (ShiftClock.wf · = true) :=
  gives_bind gives_fits1 fun _ h0 => gives_bind gives_fits1 fun _ h1 =>
    gives_pure (by simp [ShiftClock.wf, h0, h1])

theorem Reader.gives_addEntry : Reader.Gives Reader.addEntry (AddEntry.wf · = true) :=
  gives_bind gives_revision fun _ h0 => gives_bind gives_text fun _ h1 => gives_bind gives_opt1 fun _ h2 =>
  gives_bind gives_fits3 fun _ h3 => gives_bind gives_fits2 fun _ h4 => gives_bind gives_fits1 fun _ h5 =>
  gives_bind gives_fits1 fun _ h6 => gives_bind gives_fits1 fun _ h7 =>
    gives_pure (by simp [AddEntry.wf, h0, h1, h2, h3, h4, h5, h6, h7])

theorem Reader.gives_listEntries : Reader.Gives Reader.listEntries (ListEntries.wf · = true) :=
  gives_bind gives_fits3 fun _ h0 => gives_bind gives_opt2 fun _ h1 =>
    gives_pure (by simp [ListEntries.wf, h0, h1])

theorem Reader.gives_putStation : Reader.Gives Reader.putStation (PutStation.wf · = true) :=
  gives_bind gives_fits1 fun _ h0 => gives_bind gives_revision fun _ h1 => gives_bind gives_fits1 fun _ h2 =>
  gives_bind gives_fits2 fun _ h3 => gives_bind gives_fits1 fun _ h4 => gives_bind gives_opt1 fun _ h5 =>
  gives_bind gives_opt1 fun _ h6 => gives_bind gives_fits1 fun _ h7 =>
    gives_pure (by simp [PutStation.wf, h0, h1, h2, h3, h4, h5, h6, h7])

theorem Reader.gives_putEntrance : Reader.Gives Reader.putEntrance (PutEntrance.wf · = true) :=
  gives_bind gives_fits1 fun _ h0 => gives_bind gives_revision fun _ h1 => gives_bind gives_opt1 fun _ h2 =>
  gives_bind gives_fits1 fun _ h3 => gives_bind gives_fits1 fun _ h4 =>
    gives_pure (by simp [PutEntrance.wf, h0, h1, h2, h3, h4])

theorem Reader.gives_setHeadCount : Reader.Gives Reader.setHeadCount (SetHeadCount.wf · = true) :=
  gives_bind gives_fits1 fun _ h0 => gives_bind gives_fits2 fun _ h1 =>
    gives_pure (by simp [SetHeadCount.wf, h0, h1])

theorem Reader.gives_putCabin : Reader.Gives Reader.putCabin (PutCabin.wf · = true) :=
  gives_bind gives_fits2 fun _ h0 => gives_bind gives_revision fun _ h1 => gives_bind gives_text fun _ h2 =>
  gives_bind gives_fits1 fun _ h3 => gives_bind gives_fits1 fun _ h4 => gives_bind gives_fits1 fun _ h5 =>
  gives_bind gives_fits1 fun _ h6 => gives_bind gives_fits1 fun _ h7 => gives_bind gives_fits1 fun _ h8 =>
  gives_bind gives_text fun _ h9 => gives_bind gives_greeting fun _ h10 =>
    gives_pure (by simp [PutCabin.wf, h0, h1, h2, h3, h4, h5, h6, h7, h8, h9, h10])

theorem Reader.gives_setService : Reader.Gives Reader.setService (SetService.wf · = true) :=
  gives_bind gives_fits2 fun _ h0 => gives_bind gives_revision fun _ h1 => gives_bind gives_fits1 fun _ h2 =>
    gives_pure (by simp [SetService.wf, h0, h1, h2])

theorem Reader.gives_getCabin : Reader.Gives Reader.getCabin (GetCabin.wf · = true) :=
  gives_bind gives_fits2 fun _ h0 => gives_bind (gives_ifAny gives_fits1) fun _ h1 =>
    gives_pure (by simp [GetCabin.wf, h0, h1])

theorem Reader.gives_putScreen : Reader.Gives Reader.putScreen (PutScreen.wf · = true) :=
  gives_bind gives_fits1 fun _ h0 => gives_bind gives_revision fun _ h1 => gives_bind gives_fits1 fun _ h2 =>
  gives_bind gives_fits1 fun _ h3 => gives_bind gives_fits1 fun _ h4 => gives_bind gives_list1 fun _ h5 =>
  gives_bind gives_fits1 fun _ h6 => gives_bind gives_fits1 fun _ h7 => gives_bind gives_opt1 fun _ h8 =>
  gives_bind gives_fits1 fun _ h9 =>
    gives_pure (by simp [PutScreen.wf, h0, h1, h2, h3, h4, h5, h6, h7, h8, h9])

theorem Reader.gives_readContent : Reader.Gives Reader.readContent (ReadContent.wf · = true) :=
  gives_bind gives_fits1 fun _ h0 => gives_joined (gives_ifAny gives_opt1) fun _ h1 =>
    gives_pure (by simp [ReadContent.wf, h0, h1])

theorem Reader.gives_putPhrase : Reader.Gives Reader.putPhrase (PutPhrase.wf · = true) :=
  gives_bind gives_fits1 fun _ h0 => gives_bind gives_fits1 fun _ h1 => gives_bind gives_revision fun _ h2 =>
  gives_bind gives_text fun _ h3 =>
    gives_pure (by simp [PutPhrase.wf, h0, h1, h2, h3])

theorem Reader.gives_phraseName : Reader.Gives Reader.phraseName (PhraseName.wf · = true) :=
  gives_bind gives_fits1 fun _ h0 => gives_bind gives_fits1 fun _ h1 =>
    gives_pure (by simp [PhraseName.wf, h0, h1])

/-- A mask that is not 0 names a field. -/
theorem mask7_names : ∀ m < 128, m ≠ 0 → (m.testBit 0 || m.testBit 1 || m.testBit 2 || m.testBit 3 || m.testBit 4 ||
    m.testBit 5 || m.testBit 6) = true := by decide

set_option maxRecDepth 4000 in
theorem mask8_names : ∀ m < 256, m ≠ 0 → (m.testBit 0 || m.testBit 1 || m.testBit 2 || m.testBit 3 || m.testBit 4 ||
    m.testBit 5 || m.testBit 6 || m.testBit 7) = true := by decide

theorem Reader.gives_changeEntry : Reader.Gives Reader.changeEntry (ChangeEntry.wf · = true) :=
  gives_bind gives_fits1 fun _ h0 => gives_bind gives_revision fun _ h1 => gives_bind (gives_mask 7) fun m hm =>
  gives_bind (gives_named m 0 gives_text) fun _ a => gives_bind (gives_named m 1 gives_opt1) fun _ b =>
  gives_bind (gives_named m 2 gives_fits3) fun _ c => gives_bind (gives_named m 3 gives_fits2) fun _ d =>
  gives_bind (gives_named m 4 gives_fits1) fun _ e => gives_bind (gives_named m 5 gives_fits1) fun _ f =>
  gives_bind (gives_named m 6 gives_fits1) fun _ g => gives_pure (by
    have h := mask7_names m hm.2 hm.1
    rw [a.1, b.1, c.1, d.1, e.1, f.1, g.1] at h
    simp only [ChangeEntry.wf, ChangeEntry.namesField, h0, h1, a.2, b.2, c.2, d.2, e.2, f.2, g.2, h, Bool.and_self])

theorem Reader.gives_changeCabin : Reader.Gives Reader.changeCabin (ChangeCabin.wf · = true) :=
  gives_bind gives_fits2 fun _ h0 => gives_bind gives_revision fun _ h1 => gives_bind (gives_mask 8) fun m hm =>
  gives_bind (gives_named m 0 gives_fits1) fun _ a => gives_bind (gives_named m 1 gives_fits1) fun _ b =>
  gives_bind (gives_named m 2 gives_fits1) fun _ c => gives_bind (gives_named m 3 gives_fits1) fun _ d =>
  gives_bind (gives_named m 4 gives_fits1) fun _ e => gives_bind (gives_named m 5 gives_fits1) fun _ f =>
  gives_bind (gives_named m 6 gives_text) fun _ g => gives_bind (gives_named m 7 gives_greeting) fun _ k => gives_pure (by
    have h := mask8_names m hm.2 hm.1
    rw [a.1, b.1, c.1, d.1, e.1, f.1, g.1, k.1] at h
    simp only [ChangeCabin.wf, ChangeCabin.namesField, h0, h1, a.2, b.2, c.2, d.2, e.2, f.2, g.2, k.2, h, Bool.and_self])

/-- A CHANGE CABIN's payload spells well-formed fields, or does not decode. -/
theorem Reader.cabinFields_wf (p : List Byte) : (Reader.cabinFields p).wf = true := by
  have h := Reader.payload_all Reader.gives_changeCabin p
  unfold Reader.cabinFields
  split
  · rename_i e
    rw [e] at h
    exact h
  · rfl

/-! ### Every request and every answer. -/

/-- The command that a row's payload spells is well formed. -/
theorem requestRows_wf (r : RequestRow) (hr : r ∈ requestRows) (p : List Byte) : (r.command p).wf = true := by
  simp only [requestRows, requestRowsA, requestRowsB, requestRowsC, List.cons_append, List.nil_append, List.mem_cons,
    List.not_mem_nil, or_false] at hr
  rcases hr with rfl | rfl | rfl | rfl | rfl | rfl | rfl | rfl | rfl | rfl | rfl | rfl | rfl | rfl | rfl | rfl | rfl | rfl |
    rfl | rfl | rfl | rfl | rfl | rfl | rfl | rfl | rfl | rfl | rfl | rfl | rfl | rfl | rfl | rfl | rfl | rfl |
    rfl | rfl | rfl | rfl | rfl | rfl | rfl | rfl | rfl | rfl | rfl | rfl | rfl | rfl | rfl | rfl | rfl | rfl |
    rfl | rfl | rfl | rfl | rfl | rfl | rfl | rfl | rfl | rfl | rfl | rfl | rfl | rfl | rfl | rfl
  · exact Reader.payload_all Reader.gives_recordName p
  · exact Reader.payload_all Reader.gives_recordName p
  · exact rfl
  · exact rfl
  · exact rfl
  · exact Reader.payload_all Reader.gives_putNode p
  · exact Reader.payload_all Reader.gives_slot1 p
  · exact Reader.payload_all Reader.gives_fits1 p
  · exact Reader.payload_all Reader.gives_putSegment p
  · exact Reader.payload_all Reader.gives_slot2 p
  · exact Reader.payload_all Reader.gives_setSegmentState p
  · exact Reader.payload_all Reader.gives_fits2 p
  · exact Reader.payload_all Reader.gives_putTarget p
  · exact Reader.payload_all Reader.gives_slot1 p
  · exact Reader.payload_all Reader.gives_fits1 p
  · exact Reader.payload_all Reader.gives_recordName p
  · exact rfl
  · exact Reader.payload_all Reader.gives_lookUp p
  · exact rfl
  · exact rfl
  · exact Reader.payload_all Reader.gives_setClock p
  · exact Reader.payload_all Reader.gives_shiftClock p
  · exact rfl
  · exact Reader.payload_all Reader.gives_addEntry p
  · exact Reader.payload_all Reader.gives_changeEntry p
  · exact Reader.payload_all Reader.gives_slot1 p
  · exact Reader.payload_all Reader.gives_slot1 p
  · exact Reader.payload_all Reader.gives_fits1 p
  · exact Reader.payload_all Reader.gives_fits1 p
  · exact Reader.payload_all Reader.gives_listEntries p
  · exact rfl
  · exact Reader.payload_all Reader.gives_putStation p
  · exact Reader.payload_all Reader.gives_slot1 p
  · exact Reader.payload_all Reader.gives_fits1 p
  · exact Reader.payload_all Reader.gives_fits1 p
  · exact Reader.payload_all Reader.gives_putEntrance p
  · exact Reader.payload_all Reader.gives_slot1 p
  · exact Reader.payload_all Reader.gives_fits1 p
  · exact Reader.payload_all Reader.gives_fits1 p
  · exact Reader.payload_all Reader.gives_fits1 p
  · exact Reader.payload_all Reader.gives_fits1 p
  · exact Reader.payload_all Reader.gives_fits1 p
  · exact Reader.payload_all Reader.gives_setHeadCount p
  · exact Reader.payload_all Reader.gives_fits1 p
  · exact Reader.payload_all Reader.gives_putCabin p
  · exact Reader.cabinFields_wf p
  · exact Reader.payload_all Reader.gives_setService p
  · exact Reader.payload_all Reader.gives_slot2 p
  · exact Reader.payload_all Reader.gives_getCabin p
  · exact Reader.payload_all Reader.gives_text p
  · exact rfl
  · exact rfl
  · exact rfl
  · exact rfl
  · exact rfl
  · exact rfl
  · exact Reader.payload_all Reader.gives_putScreen p
  · exact Reader.payload_all Reader.gives_slot1 p
  · exact Reader.payload_all Reader.gives_fits1 p
  · exact Reader.payload_all Reader.gives_readContent p
  · exact Reader.payload_all Reader.gives_putPhrase p
  · exact Reader.payload_all Reader.gives_phraseName p
  · exact Reader.payload_all Reader.gives_fits1 p
  · exact Reader.payload_all Reader.gives_fits2 p
  · exact rfl
  · exact rfl
  · exact Reader.payload_all Reader.gives_fits1 p
  · exact Reader.payload_all Reader.gives_fits1 p
  · exact Reader.payload_all Reader.gives_fits1 p
  · exact rfl

theorem decodeSelect_wf {m : PortMoment} {bytes : List Byte} {i : Instr} (h : decodeSelect m bytes = some i) :
    i.wf = true := by
  cases bytes with
  | nil => cases h
  | cons b rest =>
    simp only [decodeSelect] at h
    split at h
    · cases h; rfl
    · rename_i hb
      cases m with
      | duringWork => cases h; rfl
      | afterWork =>
        simp only at h
        split at h
        · cases h
          simpa [Instr.wf, stoppedBytesWf, fetchCode] using hb
        · simp only [Option.map_eq_some_iff] at h
          obtain ⟨r, hr, h⟩ := h
          cases h
          exact requestRows_wf r (List.mem_of_find?_eq_some hr) _

theorem answerBody_wf {type address : Nat} {body : List Byte} {i : Instr} (ha : address < 65536)
    (h : answerBody type address body = some i) : i.wf = true := by
  have whole {r : Reader Instr} (hr : r.Gives (Instr.wf · = true)) (h : (match r body with
      | some (i, []) => some i
      | _ => none) = some i) : i.wf = true := by
    split at h
    · rename_i e
      cases h
      exact hr _ _ _ e
    · cases h
  have ha : fits2 address = true := by simpa [fits2] using ha
  simp only [answerBody] at h
  split at h
  · exact whole (Reader.gives_bind Reader.gives_fits2 fun _ h => Reader.gives_pure (by simp [Instr.wf, ha, h])) h
  · exact whole (Reader.gives_pure (by simp [Instr.wf, ha])) h
  · exact whole (Reader.gives_bind Reader.gives_fits1 fun _ h => Reader.gives_pure (by simp [Instr.wf, ha, h])) h
  · exact whole (Reader.gives_bind Reader.gives_fits3 fun _ h => Reader.gives_bind Reader.gives_fits1 fun _ h' =>
      Reader.gives_pure (by simp [Instr.wf, ha, h, h'])) h
  · exact whole (Reader.gives_pure (by simp [Instr.wf, ha])) h
  · exact whole (Reader.gives_pure (by simp [Instr.wf, ha])) h
  · exact whole (Reader.gives_bind Reader.gives_fits1 fun _ h => Reader.gives_pure (by simp [Instr.wf, ha, h])) h
  · exact whole (Reader.gives_bind Reader.gives_fits1 fun _ h => Reader.gives_pure (by simp [Instr.wf, ha, h])) h
  · exact whole (Reader.gives_bind Reader.gives_fits1 fun _ h => Reader.gives_pure (by simp [Instr.wf, ha, h])) h
  · cases h

theorem decodeAnswer_wf {c : Channel} {bytes : List Byte} {i : Instr} (h : decodeAnswer c bytes = some i) : i.wf = true := by
  unfold decodeAnswer at h
  split at h
  · rename_i a1 a0 _ _ _ _
    split at h
    · have h1 := a1.isLt
      have h0 := a0.isLt
      exact answerBody_wf (by omega) h
    · cases h
  · cases h

/-! ### The family: one lemma for each command. -/

namespace Laws.DecodesWellFormed

/-- Whatever bytes spell the command, on the command port or on a panel-link channel, its operands fit their forms. -/
def Statement (i : Instr) : Prop :=
  (∀ m bytes, decodeSelect m bytes = some i → i.wf = true) ∧ ∀ c bytes, decodeAnswer c bytes = some i → i.wf = true

theorem all (i : Instr) : Statement i := ⟨fun _ _ => decodeSelect_wf, fun _ _ => decodeAnswer_wf⟩

theorem powerOnReset : Statement (.powerOnReset) := all _
theorem pinReset : Statement (.pinReset) := all _
theorem fetch (moment : PortMoment) : Statement (.fetch moment) := all _
theorem stoppedFrame (bytes : List Byte) : Statement (.stoppedFrame bytes) := all _
theorem discardedRequest : Statement (.discardedRequest) := all _
theorem readSlot (a : Fields RecordName) : Statement (.readSlot a) := all _
theorem listDamage (a : Fields RecordName) : Statement (.listDamage a) := all _
theorem readStoreHealth : Statement (.readStoreHealth) := all _
theorem clearStoreAlert : Statement (.clearStoreAlert) := all _
theorem sweepStore : Statement (.sweepStore) := all _
theorem sweepRead : Statement (.sweepRead) := all _
theorem sweepEnds : Statement (.sweepEnds) := all _
theorem correctionWriteBack (word : Nat) : Statement (.correctionWriteBack word) := all _
theorem putNode (a : Fields PutNode) : Statement (.putNode a) := all _
theorem removeNode (a : Fields SlotArg) : Statement (.removeNode a) := all _
theorem getNode (a : Fields Nat) : Statement (.getNode a) := all _
theorem putSegment (a : Fields PutSegment) : Statement (.putSegment a) := all _
theorem removeSegment (a : Fields SlotArg) : Statement (.removeSegment a) := all _
theorem setSegmentState (a : Fields SetSegmentState) : Statement (.setSegmentState a) := all _
theorem getSegment (a : Fields Nat) : Statement (.getSegment a) := all _
theorem putTarget (a : Fields PutTarget) : Statement (.putTarget a) := all _
theorem removeTarget (a : Fields SlotArg) : Statement (.removeTarget a) := all _
theorem getTarget (a : Fields Nat) : Statement (.getTarget a) := all _
theorem readReferences (a : Fields RecordName) : Statement (.readReferences a) := all _
theorem lockTopology : Statement (.lockTopology) := all _
theorem computationCompletes : Statement (.computationCompletes) := all _
theorem lookUpRoute (a : Fields LookUp) : Statement (.lookUpRoute a) := all _
theorem recomputeAll : Statement (.recomputeAll) := all _
theorem readRouteEngine : Statement (.readRouteEngine) := all _
theorem tick64Hz (beams : BitVec 64) (alarm : Bool) : Statement (.tick64Hz beams alarm) := all _
theorem tick16Hz : Statement (.tick16Hz) := all _
theorem tick1Hz : Statement (.tick1Hz) := all _
theorem minuteBoundary : Statement (.minuteBoundary) := all _
theorem clockReachesLimit : Statement (.clockReachesLimit) := all _
theorem setClock (a : Fields SetClock) : Statement (.setClock a) := all _
theorem shiftClock (a : Fields ShiftClock) : Statement (.shiftClock a) := all _
theorem readClock : Statement (.readClock) := all _
theorem addEntry (a : Fields AddEntry) : Statement (.addEntry a) := all _
theorem changeEntry (a : Fields ChangeEntry) : Statement (.changeEntry a) := all _
theorem cancelEntry (a : Fields SlotArg) : Statement (.cancelEntry a) := all _
theorem retireEntry (a : Fields SlotArg) : Statement (.retireEntry a) := all _
theorem setLinger (a : Fields Nat) : Statement (.setLinger a) := all _
theorem getEntry (a : Fields Nat) : Statement (.getEntry a) := all _
theorem listEntries (a : Fields ListEntries) : Statement (.listEntries a) := all _
theorem readProgramme : Statement (.readProgramme) := all _
theorem putStation (a : Fields PutStation) : Statement (.putStation a) := all _
theorem removeStation (a : Fields SlotArg) : Statement (.removeStation a) := all _
theorem getStation (a : Fields Nat) : Statement (.getStation a) := all _
theorem readStation (a : Fields Nat) : Statement (.readStation a) := all _
theorem putEntrance (a : Fields PutEntrance) : Statement (.putEntrance a) := all _
theorem removeEntrance (a : Fields SlotArg) : Statement (.removeEntrance a) := all _
theorem getEntrance (a : Fields Nat) : Statement (.getEntrance a) := all _
theorem readEntrance (a : Fields Nat) : Statement (.readEntrance a) := all _
theorem secure (a : Fields Nat) : Statement (.secure a) := all _
theorem markUnsafe (a : Fields Nat) : Statement (.markUnsafe a) := all _
theorem reopen (a : Fields Nat) : Statement (.reopen a) := all _
theorem setHeadCount (a : Fields SetHeadCount) : Statement (.setHeadCount a) := all _
theorem readRoll (a : Fields Nat) : Statement (.readRoll a) := all _
theorem takenChange (entrance : Nat) (first second : Bool) : Statement (.takenChange entrance first second) := all _
theorem stuckBeamFault (entrance : Nat) (first second : Bool) : Statement (.stuckBeamFault entrance first second) := all _
theorem faultCleared (entrance : Nat) (first second : Bool) : Statement (.faultCleared entrance first second) := all _
theorem lampPhaseTurn (line : Nat) : Statement (.lampPhaseTurn line) := all _
theorem putCabin (a : Fields PutCabin) : Statement (.putCabin a) := all _
theorem changeCabin (a : CabinFields) : Statement (.changeCabin a) := all _
theorem setService (a : Fields SetService) : Statement (.setService a) := all _
theorem removeCabin (a : Fields SlotArg) : Statement (.removeCabin a) := all _
theorem getCabin (a : Fields GetCabin) : Statement (.getCabin a) := all _
theorem findCabin (a : Fields Text) : Statement (.findCabin a) := all _
theorem collectServiceChanges : Statement (.collectServiceChanges) := all _
theorem startDrill : Statement (.startDrill) := all _
theorem endDrill : Statement (.endDrill) := all _
theorem startMuster : Statement (.startMuster) := all _
theorem endMuster : Statement (.endMuster) := all _
theorem readMode : Statement (.readMode) := all _
theorem takenAssertion : Statement (.takenAssertion) := all _
theorem takenRelease : Statement (.takenRelease) := all _
theorem filterSettles : Statement (.filterSettles) := all _
theorem putScreen (a : Fields PutScreen) : Statement (.putScreen a) := all _
theorem removeScreen (a : Fields SlotArg) : Statement (.removeScreen a) := all _
theorem getScreen (a : Fields Nat) : Statement (.getScreen a) := all _
theorem readScreenContent (a : Fields ReadContent) : Statement (.readScreenContent a) := all _
theorem putPhrase (a : Fields PutPhrase) : Statement (.putPhrase a) := all _
theorem getPhrase (a : Fields PhraseName) : Statement (.getPhrase a) := all _
theorem send : Statement (.send) := all _
theorem ack (address version : Nat) : Statement (.ack address version) := all _
theorem sendNoAnswer : Statement (.sendNoAnswer) := all _
theorem probeDue (address : Nat) : Statement (.probeDue address) := all _
theorem probe : Statement (.probe) := all _
theorem probeNoAnswer : Statement (.probeNoAnswer) := all _
theorem kioskPollDue (address : Nat) : Statement (.kioskPollDue address) := all _
theorem kioskPoll : Statement (.kioskPoll) := all _
theorem nothing (address : Nat) : Statement (.nothing address) := all _
theorem routeQuery (address target : Nat) : Statement (.routeQuery address target) := all _
theorem programmeQuery (address minute audience : Nat) : Statement (.programmeQuery address minute audience) := all _
theorem kioskPollNoAnswer : Statement (.kioskPollNoAnswer) := all _
theorem reply : Statement (.reply) := all _
theorem replyNoAnswer : Statement (.replyNoAnswer) := all _
theorem tagSend : Statement (.tagSend) := all _
theorem accepted (address : Nat) : Statement (.accepted address) := all _
theorem busy (address : Nat) : Statement (.busy address) := all _
theorem tagSendNoAnswer : Statement (.tagSendNoAnswer) := all _
theorem donePollDue (address : Nat) (together : Bool) : Statement (.donePollDue address together) := all _
theorem donePoll : Statement (.donePoll) := all _
theorem done (address button : Nat) : Statement (.done address button) := all _
theorem refreshing (address button : Nat) : Statement (.refreshing address button) := all _
theorem donePollNoAnswer : Statement (.donePollNoAnswer) := all _
theorem refreshTimeout (address : Nat) : Statement (.refreshTimeout address) := all _
theorem rotationPollDue : Statement (.rotationPollDue) := all _
theorem statusPoll : Statement (.statusPoll) := all _
theorem status (address button : Nat) : Statement (.status address button) := all _
theorem statusPollNoAnswer : Statement (.statusPollNoAnswer) := all _
theorem readScreenLink (a : Fields Nat) : Statement (.readScreenLink a) := all _
theorem readTagLink (a : Fields Nat) : Statement (.readTagLink a) := all _
theorem readLinkQueues : Statement (.readLinkQueues) := all _
theorem readStatus : Statement (.readStatus) := all _
theorem clearNotices (a : Fields Nat) : Statement (.clearNotices a) := all _
theorem setNoticeEnables (a : Fields Nat) : Statement (.setNoticeEnables a) := all _
theorem setMasterEnable (a : Fields Nat) : Statement (.setMasterEnable a) := all _
theorem restart : Statement (.restart) := all _
theorem computationSegmentRead (segment : Nat) : Statement (.computationSegmentRead segment) := all _

end Laws.DecodesWellFormed

end Sys2Proof
end

