-- ==== Sys2Proof/Laws/State.lean ====
section
/-! SUPPORT. One lemma for each field under each update of the state, its blocks and an event in progress. -/

namespace Sys2Proof.Machine

/-! A notice (R184). -/

@[simp] theorem State.notice_store (n : Notice) (s : State) : (s.notice n).store = s.store := rfl
@[simp] theorem State.notice_graph (n : Notice) (s : State) : (s.notice n).graph = s.graph := rfl
@[simp] theorem State.notice_routes (n : Notice) (s : State) : (s.notice n).routes = s.routes := rfl
@[simp] theorem State.notice_time (n : Notice) (s : State) : (s.notice n).time = s.time := rfl
@[simp] theorem State.notice_prog (n : Notice) (s : State) : (s.notice n).prog = s.prog := rfl
@[simp] theorem State.notice_muster (n : Notice) (s : State) : (s.notice n).muster = s.muster := rfl
@[simp] theorem State.notice_cabinTable (n : Notice) (s : State) : (s.notice n).cabinTable = s.cabinTable := rfl
@[simp] theorem State.notice_mode (n : Notice) (s : State) : (s.notice n).mode = s.mode := rfl
@[simp] theorem State.notice_composer (n : Notice) (s : State) : (s.notice n).composer = s.composer := rfl
@[simp] theorem State.notice_scr (n : Notice) (s : State) : (s.notice n).scr = s.scr := rfl
@[simp] theorem State.notice_tag (n : Notice) (s : State) : (s.notice n).tag = s.tag := rfl
@[simp] theorem State.notice_port (n : Notice) (s : State) : (s.notice n).port = s.port.raise n := rfl
@[simp] theorem State.notice_freeCount (n : Notice) (s : State) : (s.notice n).freeCount = s.freeCount := rfl
@[simp] theorem State.notice_pending (n : Notice) (s : State) : (s.notice n).pending = s.pending := rfl

/-! A response (R181). -/

@[simp] theorem State.answer_store (c : Byte) (x : Status) (p : List Byte) (s : State) :
    (s.answer c x p).store = s.store := rfl
@[simp] theorem State.answer_graph (c : Byte) (x : Status) (p : List Byte) (s : State) :
    (s.answer c x p).graph = s.graph := rfl
@[simp] theorem State.answer_routes (c : Byte) (x : Status) (p : List Byte) (s : State) :
    (s.answer c x p).routes = s.routes := rfl
@[simp] theorem State.answer_time (c : Byte) (x : Status) (p : List Byte) (s : State) :
    (s.answer c x p).time = s.time := rfl
@[simp] theorem State.answer_prog (c : Byte) (x : Status) (p : List Byte) (s : State) :
    (s.answer c x p).prog = s.prog := rfl
@[simp] theorem State.answer_muster (c : Byte) (x : Status) (p : List Byte) (s : State) :
    (s.answer c x p).muster = s.muster := rfl
@[simp] theorem State.answer_cabinTable (c : Byte) (x : Status) (p : List Byte) (s : State) :
    (s.answer c x p).cabinTable = s.cabinTable := rfl
@[simp] theorem State.answer_mode (c : Byte) (x : Status) (p : List Byte) (s : State) :
    (s.answer c x p).mode = s.mode := rfl
@[simp] theorem State.answer_composer (c : Byte) (x : Status) (p : List Byte) (s : State) :
    (s.answer c x p).composer = s.composer := rfl
@[simp] theorem State.answer_scr (c : Byte) (x : Status) (p : List Byte) (s : State) :
    (s.answer c x p).scr = s.scr := rfl
@[simp] theorem State.answer_tag (c : Byte) (x : Status) (p : List Byte) (s : State) :
    (s.answer c x p).tag = s.tag := rfl
@[simp] theorem State.answer_port (c : Byte) (x : Status) (p : List Byte) (s : State) :
    (s.answer c x p).port =
      { s.port with buffer := .working { status := x, code := c, payload := p }, spiOut := .idle } := rfl
@[simp] theorem State.answer_freeCount (c : Byte) (x : Status) (p : List Byte) (s : State) :
    (s.answer c x p).freeCount = s.freeCount := rfl
@[simp] theorem State.answer_pending (c : Byte) (x : Status) (p : List Byte) (s : State) :
    (s.answer c x p).pending = s.pending := rfl

/-! The step on an empty queue (log 1). -/

@[simp] theorem State.idle_store (s : State) : (s.idle).store = s.store := rfl
@[simp] theorem State.idle_graph (s : State) : (s.idle).graph = s.graph := rfl
@[simp] theorem State.idle_routes (s : State) : (s.idle).routes = s.routes := rfl
@[simp] theorem State.idle_time (s : State) : (s.idle).time = s.time := rfl
@[simp] theorem State.idle_prog (s : State) : (s.idle).prog = s.prog := rfl
@[simp] theorem State.idle_muster (s : State) : (s.idle).muster = s.muster := rfl
@[simp] theorem State.idle_cabinTable (s : State) : (s.idle).cabinTable = s.cabinTable := rfl
@[simp] theorem State.idle_mode (s : State) : (s.idle).mode = s.mode := rfl
@[simp] theorem State.idle_composer (s : State) : (s.idle).composer = s.composer := rfl
@[simp] theorem State.idle_scr (s : State) : (s.idle).scr = s.scr := rfl
@[simp] theorem State.idle_tag (s : State) : (s.idle).tag = s.tag := rfl
@[simp] theorem State.idle_port (s : State) : (s.idle).port = s.port.complete := rfl
@[simp] theorem State.idle_freeCount (s : State) : (s.idle).freeCount = s.freeCount := rfl
@[simp] theorem State.idle_pending (s : State) : (s.idle).pending = s.pending := rfl

/-! Words written (R3). -/

@[simp] theorem Store.writeWords_dir (st : Store) (ws : List Nat) : (st.writeWords ws).dir = st.dir := rfl
@[simp] theorem Store.writeWords_damage (st : Store) (ws : List Nat) : (st.writeWords ws).damage = st.damage := rfl
@[simp] theorem Store.writeWords_nodes (st : Store) (ws : List Nat) : (st.writeWords ws).nodes = st.nodes := rfl
@[simp] theorem Store.writeWords_segments (st : Store) (ws : List Nat) :
    (st.writeWords ws).segments = st.segments := rfl
@[simp] theorem Store.writeWords_targets (st : Store) (ws : List Nat) : (st.writeWords ws).targets = st.targets := rfl
@[simp] theorem Store.writeWords_stations (st : Store) (ws : List Nat) :
    (st.writeWords ws).stations = st.stations := rfl
@[simp] theorem Store.writeWords_entrances (st : Store) (ws : List Nat) :
    (st.writeWords ws).entrances = st.entrances := rfl
@[simp] theorem Store.writeWords_entries (st : Store) (ws : List Nat) : (st.writeWords ws).entries = st.entries := rfl
@[simp] theorem Store.writeWords_cabins (st : Store) (ws : List Nat) : (st.writeWords ws).cabins = st.cabins := rfl
@[simp] theorem Store.writeWords_screens (st : Store) (ws : List Nat) : (st.writeWords ws).screens = st.screens := rfl
@[simp] theorem Store.writeWords_phrases (st : Store) (ws : List Nat) : (st.writeWords ws).phrases = st.phrases := rfl
@[simp] theorem Store.writeWords_cells (st : Store) (ws : List Nat) : (st.writeWords ws).cells = st.cells := rfl
@[simp] theorem Store.writeWords_ramErrors (st : Store) (ws : List Nat) :
    (st.writeWords ws).ramErrors = Table.setAll .clean st.ramErrors ws .clean := rfl
@[simp] theorem Store.writeWords_writeBacks (st : Store) (ws : List Nat) :
    (st.writeWords ws).writeBacks = st.writeBacks.map fun b => { b with rewritten := b.rewritten || ws.contains b.word } := rfl
@[simp] theorem Store.writeWords_corrected (st : Store) (ws : List Nat) :
    (st.writeWords ws).corrected = st.corrected := rfl
@[simp] theorem Store.writeWords_firstDamaged (st : Store) (ws : List Nat) :
    (st.writeWords ws).firstDamaged = st.firstDamaged := rfl
@[simp] theorem Store.writeWords_alert (st : Store) (ws : List Nat) : (st.writeWords ws).alert = st.alert := rfl
@[simp] theorem Store.writeWords_sweep (st : Store) (ws : List Nat) : (st.writeWords ws).sweep = st.sweep := rfl
@[simp] theorem Store.writeWords_lastSweep (st : Store) (ws : List Nat) :
    (st.writeWords ws).lastSweep = st.lastSweep := rfl

/-! A DAMAGED flag (R6, R9). -/

@[simp] theorem Store.setDamaged_dir (st : Store) (p : Place) (d : Bool) : (st.setDamaged p d).dir = st.dir := rfl
@[simp] theorem Store.setDamaged_damage (st : Store) (p : Place) (d : Bool) :
    (st.setDamaged p d).damage = Table.set false st.damage p.name d := rfl
@[simp] theorem Store.setDamaged_nodes (st : Store) (p : Place) (d : Bool) : (st.setDamaged p d).nodes = st.nodes := rfl
@[simp] theorem Store.setDamaged_segments (st : Store) (p : Place) (d : Bool) :
    (st.setDamaged p d).segments = st.segments := rfl
@[simp] theorem Store.setDamaged_targets (st : Store) (p : Place) (d : Bool) :
    (st.setDamaged p d).targets = st.targets := rfl
@[simp] theorem Store.setDamaged_stations (st : Store) (p : Place) (d : Bool) :
    (st.setDamaged p d).stations = st.stations := rfl
@[simp] theorem Store.setDamaged_entrances (st : Store) (p : Place) (d : Bool) :
    (st.setDamaged p d).entrances = st.entrances := rfl
@[simp] theorem Store.setDamaged_entries (st : Store) (p : Place) (d : Bool) :
    (st.setDamaged p d).entries = st.entries := rfl
@[simp] theorem Store.setDamaged_cabins (st : Store) (p : Place) (d : Bool) :
    (st.setDamaged p d).cabins = st.cabins := rfl
@[simp] theorem Store.setDamaged_screens (st : Store) (p : Place) (d : Bool) :
    (st.setDamaged p d).screens = st.screens := rfl
@[simp] theorem Store.setDamaged_phrases (st : Store) (p : Place) (d : Bool) :
    (st.setDamaged p d).phrases = st.phrases := rfl
@[simp] theorem Store.setDamaged_cells (st : Store) (p : Place) (d : Bool) : (st.setDamaged p d).cells = st.cells := rfl
@[simp] theorem Store.setDamaged_ramErrors (st : Store) (p : Place) (d : Bool) :
    (st.setDamaged p d).ramErrors = st.ramErrors := rfl
@[simp] theorem Store.setDamaged_writeBacks (st : Store) (p : Place) (d : Bool) :
    (st.setDamaged p d).writeBacks = st.writeBacks := rfl
@[simp] theorem Store.setDamaged_corrected (st : Store) (p : Place) (d : Bool) :
    (st.setDamaged p d).corrected = st.corrected := rfl
@[simp] theorem Store.setDamaged_firstDamaged (st : Store) (p : Place) (d : Bool) :
    (st.setDamaged p d).firstDamaged = st.firstDamaged := rfl
@[simp] theorem Store.setDamaged_alert (st : Store) (p : Place) (d : Bool) : (st.setDamaged p d).alert = st.alert := rfl
@[simp] theorem Store.setDamaged_sweep (st : Store) (p : Place) (d : Bool) : (st.setDamaged p d).sweep = st.sweep := rfl
@[simp] theorem Store.setDamaged_lastSweep (st : Store) (p : Place) (d : Bool) :
    (st.setDamaged p d).lastSweep = st.lastSweep := rfl

/-! A revision (R10). -/

@[simp] theorem Store.bump_dir (st : Store) (k : Kind) (i : Nat) (b : Bool) :
    (st.bump k i b).dir = Table.set {} st.dir (Place.slot k i).name { present := b, rev := (st.rev k i + 1) % 256 } := rfl
@[simp] theorem Store.bump_damage (st : Store) (k : Kind) (i : Nat) (b : Bool) :
    (st.bump k i b).damage = st.damage := rfl
@[simp] theorem Store.bump_nodes (st : Store) (k : Kind) (i : Nat) (b : Bool) : (st.bump k i b).nodes = st.nodes := rfl
@[simp] theorem Store.bump_segments (st : Store) (k : Kind) (i : Nat) (b : Bool) :
    (st.bump k i b).segments = st.segments := rfl
@[simp] theorem Store.bump_targets (st : Store) (k : Kind) (i : Nat) (b : Bool) :
    (st.bump k i b).targets = st.targets := rfl
@[simp] theorem Store.bump_stations (st : Store) (k : Kind) (i : Nat) (b : Bool) :
    (st.bump k i b).stations = st.stations := rfl
@[simp] theorem Store.bump_entrances (st : Store) (k : Kind) (i : Nat) (b : Bool) :
    (st.bump k i b).entrances = st.entrances := rfl
@[simp] theorem Store.bump_entries (st : Store) (k : Kind) (i : Nat) (b : Bool) :
    (st.bump k i b).entries = st.entries := rfl
@[simp] theorem Store.bump_cabins (st : Store) (k : Kind) (i : Nat) (b : Bool) :
    (st.bump k i b).cabins = st.cabins := rfl
@[simp] theorem Store.bump_screens (st : Store) (k : Kind) (i : Nat) (b : Bool) :
    (st.bump k i b).screens = st.screens := rfl
@[simp] theorem Store.bump_phrases (st : Store) (k : Kind) (i : Nat) (b : Bool) :
    (st.bump k i b).phrases = st.phrases := rfl
@[simp] theorem Store.bump_cells (st : Store) (k : Kind) (i : Nat) (b : Bool) : (st.bump k i b).cells = st.cells := rfl
@[simp] theorem Store.bump_ramErrors (st : Store) (k : Kind) (i : Nat) (b : Bool) :
    (st.bump k i b).ramErrors = st.ramErrors := rfl
@[simp] theorem Store.bump_writeBacks (st : Store) (k : Kind) (i : Nat) (b : Bool) :
    (st.bump k i b).writeBacks = st.writeBacks := rfl
@[simp] theorem Store.bump_corrected (st : Store) (k : Kind) (i : Nat) (b : Bool) :
    (st.bump k i b).corrected = st.corrected := rfl
@[simp] theorem Store.bump_firstDamaged (st : Store) (k : Kind) (i : Nat) (b : Bool) :
    (st.bump k i b).firstDamaged = st.firstDamaged := rfl
@[simp] theorem Store.bump_alert (st : Store) (k : Kind) (i : Nat) (b : Bool) : (st.bump k i b).alert = st.alert := rfl
@[simp] theorem Store.bump_sweep (st : Store) (k : Kind) (i : Nat) (b : Bool) : (st.bump k i b).sweep = st.sweep := rfl
@[simp] theorem Store.bump_lastSweep (st : Store) (k : Kind) (i : Nat) (b : Bool) :
    (st.bump k i b).lastSweep = st.lastSweep := rfl

/-! A whole-record write (R3, R9, R10). -/

@[simp] theorem Store.putSlot_dir (st : Store) (k : Kind) (i : Nat) :
    (st.putSlot k i).dir = Table.set {} st.dir (Place.slot k i).name { present := true, rev := (st.rev k i + 1) % 256 } := rfl
@[simp] theorem Store.putSlot_damage (st : Store) (k : Kind) (i : Nat) :
    (st.putSlot k i).damage = Table.set false st.damage (Place.slot k i).name false := rfl
@[simp] theorem Store.putSlot_nodes (st : Store) (k : Kind) (i : Nat) : (st.putSlot k i).nodes = st.nodes := rfl
@[simp] theorem Store.putSlot_segments (st : Store) (k : Kind) (i : Nat) :
    (st.putSlot k i).segments = st.segments := rfl
@[simp] theorem Store.putSlot_targets (st : Store) (k : Kind) (i : Nat) : (st.putSlot k i).targets = st.targets := rfl
@[simp] theorem Store.putSlot_stations (st : Store) (k : Kind) (i : Nat) :
    (st.putSlot k i).stations = st.stations := rfl
@[simp] theorem Store.putSlot_entrances (st : Store) (k : Kind) (i : Nat) :
    (st.putSlot k i).entrances = st.entrances := rfl
@[simp] theorem Store.putSlot_entries (st : Store) (k : Kind) (i : Nat) : (st.putSlot k i).entries = st.entries := rfl
@[simp] theorem Store.putSlot_cabins (st : Store) (k : Kind) (i : Nat) : (st.putSlot k i).cabins = st.cabins := rfl
@[simp] theorem Store.putSlot_screens (st : Store) (k : Kind) (i : Nat) : (st.putSlot k i).screens = st.screens := rfl
@[simp] theorem Store.putSlot_phrases (st : Store) (k : Kind) (i : Nat) : (st.putSlot k i).phrases = st.phrases := rfl
@[simp] theorem Store.putSlot_cells (st : Store) (k : Kind) (i : Nat) : (st.putSlot k i).cells = st.cells := rfl
@[simp] theorem Store.putSlot_ramErrors (st : Store) (k : Kind) (i : Nat) :
    (st.putSlot k i).ramErrors = Table.setAll .clean st.ramErrors (Place.slot k i).words .clean := rfl
@[simp] theorem Store.putSlot_writeBacks (st : Store) (k : Kind) (i : Nat) :
    (st.putSlot k i).writeBacks = (st.writeWords (Place.slot k i).words).writeBacks := rfl
@[simp] theorem Store.putSlot_corrected (st : Store) (k : Kind) (i : Nat) :
    (st.putSlot k i).corrected = st.corrected := rfl
@[simp] theorem Store.putSlot_firstDamaged (st : Store) (k : Kind) (i : Nat) :
    (st.putSlot k i).firstDamaged = st.firstDamaged := rfl
@[simp] theorem Store.putSlot_alert (st : Store) (k : Kind) (i : Nat) : (st.putSlot k i).alert = st.alert := rfl
@[simp] theorem Store.putSlot_sweep (st : Store) (k : Kind) (i : Nat) : (st.putSlot k i).sweep = st.sweep := rfl
@[simp] theorem Store.putSlot_lastSweep (st : Store) (k : Kind) (i : Nat) :
    (st.putSlot k i).lastSweep = st.lastSweep := rfl

/-! A removal (R3, R9, R10). -/

@[simp] theorem Store.removeSlot_dir (st : Store) (k : Kind) (i : Nat) :
    (st.removeSlot k i).dir = Table.set {} st.dir (Place.slot k i).name { present := false, rev := (st.rev k i + 1) % 256 } := rfl
@[simp] theorem Store.removeSlot_damage (st : Store) (k : Kind) (i : Nat) :
    (st.removeSlot k i).damage = Table.set false st.damage (Place.slot k i).name false := rfl
@[simp] theorem Store.removeSlot_nodes (st : Store) (k : Kind) (i : Nat) : (st.removeSlot k i).nodes = st.nodes := rfl
@[simp] theorem Store.removeSlot_segments (st : Store) (k : Kind) (i : Nat) :
    (st.removeSlot k i).segments = st.segments := rfl
@[simp] theorem Store.removeSlot_targets (st : Store) (k : Kind) (i : Nat) :
    (st.removeSlot k i).targets = st.targets := rfl
@[simp] theorem Store.removeSlot_stations (st : Store) (k : Kind) (i : Nat) :
    (st.removeSlot k i).stations = st.stations := rfl
@[simp] theorem Store.removeSlot_entrances (st : Store) (k : Kind) (i : Nat) :
    (st.removeSlot k i).entrances = st.entrances := rfl
@[simp] theorem Store.removeSlot_entries (st : Store) (k : Kind) (i : Nat) :
    (st.removeSlot k i).entries = st.entries := rfl
@[simp] theorem Store.removeSlot_cabins (st : Store) (k : Kind) (i : Nat) :
    (st.removeSlot k i).cabins = st.cabins := rfl
@[simp] theorem Store.removeSlot_screens (st : Store) (k : Kind) (i : Nat) :
    (st.removeSlot k i).screens = st.screens := rfl
@[simp] theorem Store.removeSlot_phrases (st : Store) (k : Kind) (i : Nat) :
    (st.removeSlot k i).phrases = st.phrases := rfl
@[simp] theorem Store.removeSlot_cells (st : Store) (k : Kind) (i : Nat) : (st.removeSlot k i).cells = st.cells := rfl
@[simp] theorem Store.removeSlot_ramErrors (st : Store) (k : Kind) (i : Nat) :
    (st.removeSlot k i).ramErrors = st.ramErrors := rfl
@[simp] theorem Store.removeSlot_writeBacks (st : Store) (k : Kind) (i : Nat) :
    (st.removeSlot k i).writeBacks = st.writeBacks := rfl
@[simp] theorem Store.removeSlot_corrected (st : Store) (k : Kind) (i : Nat) :
    (st.removeSlot k i).corrected = st.corrected := rfl
@[simp] theorem Store.removeSlot_firstDamaged (st : Store) (k : Kind) (i : Nat) :
    (st.removeSlot k i).firstDamaged = st.firstDamaged := rfl
@[simp] theorem Store.removeSlot_alert (st : Store) (k : Kind) (i : Nat) : (st.removeSlot k i).alert = st.alert := rfl
@[simp] theorem Store.removeSlot_sweep (st : Store) (k : Kind) (i : Nat) : (st.removeSlot k i).sweep = st.sweep := rfl
@[simp] theorem Store.removeSlot_lastSweep (st : Store) (k : Kind) (i : Nat) :
    (st.removeSlot k i).lastSweep = st.lastSweep := rfl

/-! A partial change (R3, R10). -/

@[simp] theorem Store.changeSlot_dir (st : Store) (k : Kind) (i : Nat) (ws : List Nat) :
    (st.changeSlot k i ws).dir = Table.set {} st.dir (Place.slot k i).name { present := true, rev := (st.rev k i + 1) % 256 } := rfl
@[simp] theorem Store.changeSlot_damage (st : Store) (k : Kind) (i : Nat) (ws : List Nat) :
    (st.changeSlot k i ws).damage = st.damage := rfl
@[simp] theorem Store.changeSlot_nodes (st : Store) (k : Kind) (i : Nat) (ws : List Nat) :
    (st.changeSlot k i ws).nodes = st.nodes := rfl
@[simp] theorem Store.changeSlot_segments (st : Store) (k : Kind) (i : Nat) (ws : List Nat) :
    (st.changeSlot k i ws).segments = st.segments := rfl
@[simp] theorem Store.changeSlot_targets (st : Store) (k : Kind) (i : Nat) (ws : List Nat) :
    (st.changeSlot k i ws).targets = st.targets := rfl
@[simp] theorem Store.changeSlot_stations (st : Store) (k : Kind) (i : Nat) (ws : List Nat) :
    (st.changeSlot k i ws).stations = st.stations := rfl
@[simp] theorem Store.changeSlot_entrances (st : Store) (k : Kind) (i : Nat) (ws : List Nat) :
    (st.changeSlot k i ws).entrances = st.entrances := rfl
@[simp] theorem Store.changeSlot_entries (st : Store) (k : Kind) (i : Nat) (ws : List Nat) :
    (st.changeSlot k i ws).entries = st.entries := rfl
@[simp] theorem Store.changeSlot_cabins (st : Store) (k : Kind) (i : Nat) (ws : List Nat) :
    (st.changeSlot k i ws).cabins = st.cabins := rfl
@[simp] theorem Store.changeSlot_screens (st : Store) (k : Kind) (i : Nat) (ws : List Nat) :
    (st.changeSlot k i ws).screens = st.screens := rfl
@[simp] theorem Store.changeSlot_phrases (st : Store) (k : Kind) (i : Nat) (ws : List Nat) :
    (st.changeSlot k i ws).phrases = st.phrases := rfl
@[simp] theorem Store.changeSlot_cells (st : Store) (k : Kind) (i : Nat) (ws : List Nat) :
    (st.changeSlot k i ws).cells = st.cells := rfl
@[simp] theorem Store.changeSlot_ramErrors (st : Store) (k : Kind) (i : Nat) (ws : List Nat) :
    (st.changeSlot k i ws).ramErrors = Table.setAll .clean st.ramErrors ws .clean := rfl
@[simp] theorem Store.changeSlot_writeBacks (st : Store) (k : Kind) (i : Nat) (ws : List Nat) :
    (st.changeSlot k i ws).writeBacks = (st.writeWords ws).writeBacks := rfl
@[simp] theorem Store.changeSlot_corrected (st : Store) (k : Kind) (i : Nat) (ws : List Nat) :
    (st.changeSlot k i ws).corrected = st.corrected := rfl
@[simp] theorem Store.changeSlot_firstDamaged (st : Store) (k : Kind) (i : Nat) (ws : List Nat) :
    (st.changeSlot k i ws).firstDamaged = st.firstDamaged := rfl
@[simp] theorem Store.changeSlot_alert (st : Store) (k : Kind) (i : Nat) (ws : List Nat) :
    (st.changeSlot k i ws).alert = st.alert := rfl
@[simp] theorem Store.changeSlot_sweep (st : Store) (k : Kind) (i : Nat) (ws : List Nat) :
    (st.changeSlot k i ws).sweep = st.sweep := rfl
@[simp] theorem Store.changeSlot_lastSweep (st : Store) (k : Kind) (i : Nat) (ws : List Nat) :
    (st.changeSlot k i ws).lastSweep = st.lastSweep := rfl

/-! A double-bit error (R6). -/

@[simp] theorem Store.find_dir (st : Store) (p : Place) : (st.find p false).dir = st.dir := rfl
@[simp] theorem Store.find_damage (st : Store) (p : Place) :
    (st.find p false).damage = Table.set false st.damage p.name true := rfl
@[simp] theorem Store.find_nodes (st : Store) (p : Place) : (st.find p false).nodes = st.nodes := rfl
@[simp] theorem Store.find_segments (st : Store) (p : Place) : (st.find p false).segments = st.segments := rfl
@[simp] theorem Store.find_targets (st : Store) (p : Place) : (st.find p false).targets = st.targets := rfl
@[simp] theorem Store.find_stations (st : Store) (p : Place) : (st.find p false).stations = st.stations := rfl
@[simp] theorem Store.find_entrances (st : Store) (p : Place) : (st.find p false).entrances = st.entrances := rfl
@[simp] theorem Store.find_entries (st : Store) (p : Place) : (st.find p false).entries = st.entries := rfl
@[simp] theorem Store.find_cabins (st : Store) (p : Place) : (st.find p false).cabins = st.cabins := rfl
@[simp] theorem Store.find_screens (st : Store) (p : Place) : (st.find p false).screens = st.screens := rfl
@[simp] theorem Store.find_phrases (st : Store) (p : Place) : (st.find p false).phrases = st.phrases := rfl
@[simp] theorem Store.find_cells (st : Store) (p : Place) : (st.find p false).cells = st.cells := rfl
@[simp] theorem Store.find_ramErrors (st : Store) (p : Place) : (st.find p false).ramErrors = st.ramErrors := rfl
@[simp] theorem Store.find_writeBacks (st : Store) (p : Place) : (st.find p false).writeBacks = st.writeBacks := rfl
@[simp] theorem Store.find_corrected (st : Store) (p : Place) : (st.find p false).corrected = st.corrected := rfl
@[simp] theorem Store.find_firstDamaged (st : Store) (p : Place) :
    (st.find p false).firstDamaged = (st.firstDamaged <|> some p) := rfl
@[simp] theorem Store.find_alert (st : Store) (p : Place) : (st.find p false).alert = true := rfl
@[simp] theorem Store.find_sweep (st : Store) (p : Place) : (st.find p false).sweep = st.sweep := rfl
@[simp] theorem Store.find_lastSweep (st : Store) (p : Place) : (st.find p false).lastSweep = st.lastSweep := rfl

/-! A single-bit error (R5). -/

@[simp] theorem Store.correct_dir (st : Store) (w : Nat) : (st.correct w false).dir = st.dir := rfl
@[simp] theorem Store.correct_damage (st : Store) (w : Nat) : (st.correct w false).damage = st.damage := rfl
@[simp] theorem Store.correct_nodes (st : Store) (w : Nat) : (st.correct w false).nodes = st.nodes := rfl
@[simp] theorem Store.correct_segments (st : Store) (w : Nat) : (st.correct w false).segments = st.segments := rfl
@[simp] theorem Store.correct_targets (st : Store) (w : Nat) : (st.correct w false).targets = st.targets := rfl
@[simp] theorem Store.correct_stations (st : Store) (w : Nat) : (st.correct w false).stations = st.stations := rfl
@[simp] theorem Store.correct_entrances (st : Store) (w : Nat) : (st.correct w false).entrances = st.entrances := rfl
@[simp] theorem Store.correct_entries (st : Store) (w : Nat) : (st.correct w false).entries = st.entries := rfl
@[simp] theorem Store.correct_cabins (st : Store) (w : Nat) : (st.correct w false).cabins = st.cabins := rfl
@[simp] theorem Store.correct_screens (st : Store) (w : Nat) : (st.correct w false).screens = st.screens := rfl
@[simp] theorem Store.correct_phrases (st : Store) (w : Nat) : (st.correct w false).phrases = st.phrases := rfl
@[simp] theorem Store.correct_cells (st : Store) (w : Nat) : (st.correct w false).cells = st.cells := rfl
@[simp] theorem Store.correct_ramErrors (st : Store) (w : Nat) : (st.correct w false).ramErrors = st.ramErrors := rfl
@[simp] theorem Store.correct_writeBacks (st : Store) (w : Nat) :
    (st.correct w false).writeBacks = st.writeBacks ++ [{ word := w, rewritten := false }] := rfl
@[simp] theorem Store.correct_corrected (st : Store) (w : Nat) :
    (st.correct w false).corrected = countTo 65535 st.corrected := rfl
@[simp] theorem Store.correct_firstDamaged (st : Store) (w : Nat) :
    (st.correct w false).firstDamaged = st.firstDamaged := rfl
@[simp] theorem Store.correct_alert (st : Store) (w : Nat) : (st.correct w false).alert = st.alert := rfl
@[simp] theorem Store.correct_sweep (st : Store) (w : Nat) : (st.correct w false).sweep = st.sweep := rfl
@[simp] theorem Store.correct_lastSweep (st : Store) (w : Nat) : (st.correct w false).lastSweep = st.lastSweep := rfl

/-! The Muster Unit's registers. -/

@[simp] theorem Muster.setLive_stationSettings (n : Nat) (l : StationLive) (m : Muster) :
    (m.setLive n l).stationSettings = m.stationSettings := rfl
@[simp] theorem Muster.setLive_stations (n : Nat) (l : StationLive) (m : Muster) :
    (m.setLive n l).stations = Table.set {} m.stations n l := rfl
@[simp] theorem Muster.setLive_effective (n : Nat) (l : StationLive) (m : Muster) :
    (m.setLive n l).effective = m.effective := rfl
@[simp] theorem Muster.setLive_entranceSettings (n : Nat) (l : StationLive) (m : Muster) :
    (m.setLive n l).entranceSettings = m.entranceSettings := rfl
@[simp] theorem Muster.setLive_beams (n : Nat) (l : StationLive) (m : Muster) : (m.setLive n l).beams = m.beams := rfl
@[simp] theorem Muster.setLive_decoders (n : Nat) (l : StationLive) (m : Muster) :
    (m.setLive n l).decoders = m.decoders := rfl
@[simp] theorem Muster.setLive_roster (n : Nat) (l : StationLive) (m : Muster) :
    (m.setLive n l).roster = m.roster := rfl
@[simp] theorem Muster.setLive_session (n : Nat) (l : StationLive) (m : Muster) :
    (m.setLive n l).session = m.session := rfl
@[simp] theorem Muster.setLive_roll (n : Nat) (l : StationLive) (m : Muster) : (m.setLive n l).roll = m.roll := rfl
@[simp] theorem Muster.setLive_lamps (n : Nat) (l : StationLive) (m : Muster) : (m.setLive n l).lamps = m.lamps := rfl

/-! An entrance's decoder. -/

@[simp] theorem Muster.setDecoder_stationSettings (k : Nat) (d : Decoder) (m : Muster) :
    (m.setDecoder k d).stationSettings = m.stationSettings := rfl
@[simp] theorem Muster.setDecoder_stations (k : Nat) (d : Decoder) (m : Muster) :
    (m.setDecoder k d).stations = m.stations := rfl
@[simp] theorem Muster.setDecoder_effective (k : Nat) (d : Decoder) (m : Muster) :
    (m.setDecoder k d).effective = m.effective := rfl
@[simp] theorem Muster.setDecoder_entranceSettings (k : Nat) (d : Decoder) (m : Muster) :
    (m.setDecoder k d).entranceSettings = m.entranceSettings := rfl
@[simp] theorem Muster.setDecoder_beams (k : Nat) (d : Decoder) (m : Muster) : (m.setDecoder k d).beams = m.beams := rfl
@[simp] theorem Muster.setDecoder_decoders (k : Nat) (d : Decoder) (m : Muster) :
    (m.setDecoder k d).decoders = Table.set {} m.decoders k d := rfl
@[simp] theorem Muster.setDecoder_roster (k : Nat) (d : Decoder) (m : Muster) :
    (m.setDecoder k d).roster = m.roster := rfl
@[simp] theorem Muster.setDecoder_session (k : Nat) (d : Decoder) (m : Muster) :
    (m.setDecoder k d).session = m.session := rfl
@[simp] theorem Muster.setDecoder_roll (k : Nat) (d : Decoder) (m : Muster) : (m.setDecoder k d).roll = m.roll := rfl
@[simp] theorem Muster.setDecoder_lamps (k : Nat) (d : Decoder) (m : Muster) : (m.setDecoder k d).lamps = m.lamps := rfl

/-! A beam's filter. -/

@[simp] theorem Muster.setBeam_stationSettings (i : Nat) (b : Beam) (m : Muster) :
    (m.setBeam i b).stationSettings = m.stationSettings := rfl
@[simp] theorem Muster.setBeam_stations (i : Nat) (b : Beam) (m : Muster) : (m.setBeam i b).stations = m.stations := rfl
@[simp] theorem Muster.setBeam_effective (i : Nat) (b : Beam) (m : Muster) :
    (m.setBeam i b).effective = m.effective := rfl
@[simp] theorem Muster.setBeam_entranceSettings (i : Nat) (b : Beam) (m : Muster) :
    (m.setBeam i b).entranceSettings = m.entranceSettings := rfl
@[simp] theorem Muster.setBeam_beams (i : Nat) (b : Beam) (m : Muster) :
    (m.setBeam i b).beams = Table.set {} m.beams i b := rfl
@[simp] theorem Muster.setBeam_decoders (i : Nat) (b : Beam) (m : Muster) : (m.setBeam i b).decoders = m.decoders := rfl
@[simp] theorem Muster.setBeam_roster (i : Nat) (b : Beam) (m : Muster) : (m.setBeam i b).roster = m.roster := rfl
@[simp] theorem Muster.setBeam_session (i : Nat) (b : Beam) (m : Muster) : (m.setBeam i b).session = m.session := rfl
@[simp] theorem Muster.setBeam_roll (i : Nat) (b : Beam) (m : Muster) : (m.setBeam i b).roll = m.roll := rfl
@[simp] theorem Muster.setBeam_lamps (i : Nat) (b : Beam) (m : Muster) : (m.setBeam i b).lamps = m.lamps := rfl

/-! A lamp line's generator. -/

@[simp] theorem Muster.setLamp_stationSettings (l : Nat) (p : Lamp) (m : Muster) :
    (m.setLamp l p).stationSettings = m.stationSettings := rfl
@[simp] theorem Muster.setLamp_stations (l : Nat) (p : Lamp) (m : Muster) : (m.setLamp l p).stations = m.stations := rfl
@[simp] theorem Muster.setLamp_effective (l : Nat) (p : Lamp) (m : Muster) :
    (m.setLamp l p).effective = m.effective := rfl
@[simp] theorem Muster.setLamp_entranceSettings (l : Nat) (p : Lamp) (m : Muster) :
    (m.setLamp l p).entranceSettings = m.entranceSettings := rfl
@[simp] theorem Muster.setLamp_beams (l : Nat) (p : Lamp) (m : Muster) : (m.setLamp l p).beams = m.beams := rfl
@[simp] theorem Muster.setLamp_decoders (l : Nat) (p : Lamp) (m : Muster) : (m.setLamp l p).decoders = m.decoders := rfl
@[simp] theorem Muster.setLamp_roster (l : Nat) (p : Lamp) (m : Muster) : (m.setLamp l p).roster = m.roster := rfl
@[simp] theorem Muster.setLamp_session (l : Nat) (p : Lamp) (m : Muster) : (m.setLamp l p).session = m.session := rfl
@[simp] theorem Muster.setLamp_roll (l : Nat) (p : Lamp) (m : Muster) : (m.setLamp l p).roll = m.roll := rfl
@[simp] theorem Muster.setLamp_lamps (l : Nat) (p : Lamp) (m : Muster) :
    (m.setLamp l p).lamps = Table.set {} m.lamps l p := rfl

/-! The roster (R106). -/

@[simp] theorem Muster.setRoster_stationSettings (c : Nat) (r : Option RosterEntry) (m : Muster) :
    (m.setRoster c r).stationSettings = m.stationSettings := rfl
@[simp] theorem Muster.setRoster_stations (c : Nat) (r : Option RosterEntry) (m : Muster) :
    (m.setRoster c r).stations = m.stations := rfl
@[simp] theorem Muster.setRoster_effective (c : Nat) (r : Option RosterEntry) (m : Muster) :
    (m.setRoster c r).effective = m.effective := rfl
@[simp] theorem Muster.setRoster_entranceSettings (c : Nat) (r : Option RosterEntry) (m : Muster) :
    (m.setRoster c r).entranceSettings = m.entranceSettings := rfl
@[simp] theorem Muster.setRoster_beams (c : Nat) (r : Option RosterEntry) (m : Muster) :
    (m.setRoster c r).beams = m.beams := rfl
@[simp] theorem Muster.setRoster_decoders (c : Nat) (r : Option RosterEntry) (m : Muster) :
    (m.setRoster c r).decoders = m.decoders := rfl
@[simp] theorem Muster.setRoster_roster (c : Nat) (r : Option RosterEntry) (m : Muster) :
    (m.setRoster c r).roster = Table.set none m.roster c r := rfl
@[simp] theorem Muster.setRoster_session (c : Nat) (r : Option RosterEntry) (m : Muster) :
    (m.setRoster c r).session = m.session := rfl
@[simp] theorem Muster.setRoster_roll (c : Nat) (r : Option RosterEntry) (m : Muster) :
    (m.setRoster c r).roll = m.roll := rfl
@[simp] theorem Muster.setRoster_lamps (c : Nat) (r : Option RosterEntry) (m : Muster) :
    (m.setRoster c r).lamps = m.lamps := rfl

/-! A column's state (R43). -/

@[simp] theorem Routes.setCol_cols (t : Nat) (c : ColState) (r : Routes) :
    (r.setCol t c).cols = Table.set .empty r.cols t c := rfl
@[simp] theorem Routes.setCol_queue (t : Nat) (c : ColState) (r : Routes) : (r.setCol t c).queue = r.queue := rfl
@[simp] theorem Routes.setCol_joinCount (t : Nat) (c : ColState) (r : Routes) :
    (r.setCol t c).joinCount = r.joinCount := rfl
@[simp] theorem Routes.setCol_engine (t : Nat) (c : ColState) (r : Routes) : (r.setCol t c).engine = r.engine := rfl

/-! The reference index (R25). -/

@[simp] theorem Graph.setSegment_refSegments (n : Nat) (r : Option SegRef) (g : Graph) :
    (g.setSegment n r).refSegments = Table.set none g.refSegments n r := rfl
@[simp] theorem Graph.setSegment_refTargets (n : Nat) (r : Option SegRef) (g : Graph) :
    (g.setSegment n r).refTargets = g.refTargets := rfl
@[simp] theorem Graph.setSegment_refStations (n : Nat) (r : Option SegRef) (g : Graph) :
    (g.setSegment n r).refStations = g.refStations := rfl
@[simp] theorem Graph.setSegment_refScreens (n : Nat) (r : Option SegRef) (g : Graph) :
    (g.setSegment n r).refScreens = g.refScreens := rfl
@[simp] theorem Graph.setSegment_refCabins (n : Nat) (r : Option SegRef) (g : Graph) :
    (g.setSegment n r).refCabins = g.refCabins := rfl
@[simp] theorem Graph.setSegment_refEntries (n : Nat) (r : Option SegRef) (g : Graph) :
    (g.setSegment n r).refEntries = g.refEntries := rfl
@[simp] theorem Graph.setSegment_lock (n : Nat) (r : Option SegRef) (g : Graph) :
    (g.setSegment n r).lock = g.lock := rfl

/-! The reference index (R25). -/

@[simp] theorem Graph.setTarget_refSegments (n : Nat) (r : Option TargetRef) (g : Graph) :
    (g.setTarget n r).refSegments = g.refSegments := rfl
@[simp] theorem Graph.setTarget_refTargets (n : Nat) (r : Option TargetRef) (g : Graph) :
    (g.setTarget n r).refTargets = Table.set none g.refTargets n r := rfl
@[simp] theorem Graph.setTarget_refStations (n : Nat) (r : Option TargetRef) (g : Graph) :
    (g.setTarget n r).refStations = g.refStations := rfl
@[simp] theorem Graph.setTarget_refScreens (n : Nat) (r : Option TargetRef) (g : Graph) :
    (g.setTarget n r).refScreens = g.refScreens := rfl
@[simp] theorem Graph.setTarget_refCabins (n : Nat) (r : Option TargetRef) (g : Graph) :
    (g.setTarget n r).refCabins = g.refCabins := rfl
@[simp] theorem Graph.setTarget_refEntries (n : Nat) (r : Option TargetRef) (g : Graph) :
    (g.setTarget n r).refEntries = g.refEntries := rfl
@[simp] theorem Graph.setTarget_lock (n : Nat) (r : Option TargetRef) (g : Graph) :
    (g.setTarget n r).lock = g.lock := rfl

/-! The reference index (R25). -/

@[simp] theorem Graph.setStation_refSegments (n : Nat) (r : Option Nat) (g : Graph) :
    (g.setStation n r).refSegments = g.refSegments := rfl
@[simp] theorem Graph.setStation_refTargets (n : Nat) (r : Option Nat) (g : Graph) :
    (g.setStation n r).refTargets = g.refTargets := rfl
@[simp] theorem Graph.setStation_refStations (n : Nat) (r : Option Nat) (g : Graph) :
    (g.setStation n r).refStations = Table.set none g.refStations n r := rfl
@[simp] theorem Graph.setStation_refScreens (n : Nat) (r : Option Nat) (g : Graph) :
    (g.setStation n r).refScreens = g.refScreens := rfl
@[simp] theorem Graph.setStation_refCabins (n : Nat) (r : Option Nat) (g : Graph) :
    (g.setStation n r).refCabins = g.refCabins := rfl
@[simp] theorem Graph.setStation_refEntries (n : Nat) (r : Option Nat) (g : Graph) :
    (g.setStation n r).refEntries = g.refEntries := rfl
@[simp] theorem Graph.setStation_lock (n : Nat) (r : Option Nat) (g : Graph) : (g.setStation n r).lock = g.lock := rfl

/-! The reference index (R25). -/

@[simp] theorem Graph.setScreen_refSegments (n : Nat) (r : Option ScreenRef) (g : Graph) :
    (g.setScreen n r).refSegments = g.refSegments := rfl
@[simp] theorem Graph.setScreen_refTargets (n : Nat) (r : Option ScreenRef) (g : Graph) :
    (g.setScreen n r).refTargets = g.refTargets := rfl
@[simp] theorem Graph.setScreen_refStations (n : Nat) (r : Option ScreenRef) (g : Graph) :
    (g.setScreen n r).refStations = g.refStations := rfl
@[simp] theorem Graph.setScreen_refScreens (n : Nat) (r : Option ScreenRef) (g : Graph) :
    (g.setScreen n r).refScreens = Table.set none g.refScreens n r := rfl
@[simp] theorem Graph.setScreen_refCabins (n : Nat) (r : Option ScreenRef) (g : Graph) :
    (g.setScreen n r).refCabins = g.refCabins := rfl
@[simp] theorem Graph.setScreen_refEntries (n : Nat) (r : Option ScreenRef) (g : Graph) :
    (g.setScreen n r).refEntries = g.refEntries := rfl
@[simp] theorem Graph.setScreen_lock (n : Nat) (r : Option ScreenRef) (g : Graph) :
    (g.setScreen n r).lock = g.lock := rfl

/-! The reference index (R25). -/

@[simp] theorem Graph.setCabin_refSegments (n : Nat) (r : Option Nat) (g : Graph) :
    (g.setCabin n r).refSegments = g.refSegments := rfl
@[simp] theorem Graph.setCabin_refTargets (n : Nat) (r : Option Nat) (g : Graph) :
    (g.setCabin n r).refTargets = g.refTargets := rfl
@[simp] theorem Graph.setCabin_refStations (n : Nat) (r : Option Nat) (g : Graph) :
    (g.setCabin n r).refStations = g.refStations := rfl
@[simp] theorem Graph.setCabin_refScreens (n : Nat) (r : Option Nat) (g : Graph) :
    (g.setCabin n r).refScreens = g.refScreens := rfl
@[simp] theorem Graph.setCabin_refCabins (n : Nat) (r : Option Nat) (g : Graph) :
    (g.setCabin n r).refCabins = Table.set none g.refCabins n r := rfl
@[simp] theorem Graph.setCabin_refEntries (n : Nat) (r : Option Nat) (g : Graph) :
    (g.setCabin n r).refEntries = g.refEntries := rfl
@[simp] theorem Graph.setCabin_lock (n : Nat) (r : Option Nat) (g : Graph) : (g.setCabin n r).lock = g.lock := rfl

/-! The reference index (R25). -/

@[simp] theorem Graph.setEntry_refSegments (n : Nat) (r : Option EntryRef) (g : Graph) :
    (g.setEntry n r).refSegments = g.refSegments := rfl
@[simp] theorem Graph.setEntry_refTargets (n : Nat) (r : Option EntryRef) (g : Graph) :
    (g.setEntry n r).refTargets = g.refTargets := rfl
@[simp] theorem Graph.setEntry_refStations (n : Nat) (r : Option EntryRef) (g : Graph) :
    (g.setEntry n r).refStations = g.refStations := rfl
@[simp] theorem Graph.setEntry_refScreens (n : Nat) (r : Option EntryRef) (g : Graph) :
    (g.setEntry n r).refScreens = g.refScreens := rfl
@[simp] theorem Graph.setEntry_refCabins (n : Nat) (r : Option EntryRef) (g : Graph) :
    (g.setEntry n r).refCabins = g.refCabins := rfl
@[simp] theorem Graph.setEntry_refEntries (n : Nat) (r : Option EntryRef) (g : Graph) :
    (g.setEntry n r).refEntries = Table.set none g.refEntries n r := rfl
@[simp] theorem Graph.setEntry_lock (n : Nat) (r : Option EntryRef) (g : Graph) : (g.setEntry n r).lock = g.lock := rfl

/-! A transfer begins on the screen channel (R168). -/

@[simp] theorem ScreenChannel.begin_links (t : ScreenTransfer) (f : PanelFrame) (c : ScreenChannel) :
    (c.begin t f).links = c.links := rfl
@[simp] theorem ScreenChannel.begin_sendQueue (t : ScreenTransfer) (f : PanelFrame) (c : ScreenChannel) :
    (c.begin t f).sendQueue = c.sendQueue := rfl
@[simp] theorem ScreenChannel.begin_silent (t : ScreenTransfer) (f : PanelFrame) (c : ScreenChannel) :
    (c.begin t f).silent = c.silent := rfl
@[simp] theorem ScreenChannel.begin_probeDue (t : ScreenTransfer) (f : PanelFrame) (c : ScreenChannel) :
    (c.begin t f).probeDue = c.probeDue := rfl
@[simp] theorem ScreenChannel.begin_kioskDue (t : ScreenTransfer) (f : PanelFrame) (c : ScreenChannel) :
    (c.begin t f).kioskDue = c.kioskDue := rfl
@[simp] theorem ScreenChannel.begin_kioskPtr (t : ScreenTransfer) (f : PanelFrame) (c : ScreenChannel) :
    (c.begin t f).kioskPtr = c.kioskPtr := rfl
@[simp] theorem ScreenChannel.begin_reply (t : ScreenTransfer) (f : PanelFrame) (c : ScreenChannel) :
    (c.begin t f).reply = c.reply := rfl
@[simp] theorem ScreenChannel.begin_transfer (t : ScreenTransfer) (f : PanelFrame) (c : ScreenChannel) :
    (c.begin t f).transfer = some t := rfl
@[simp] theorem ScreenChannel.begin_lastFrame (t : ScreenTransfer) (f : PanelFrame) (c : ScreenChannel) :
    (c.begin t f).lastFrame = some f := rfl

/-! A transfer begins on the tag channel (R174). -/

@[simp] theorem TagChannel.begin_links (t : TagTransfer) (f : PanelFrame) (c : TagChannel) :
    (c.begin t f).links = c.links := rfl
@[simp] theorem TagChannel.begin_routine (t : TagTransfer) (f : PanelFrame) (c : TagChannel) :
    (c.begin t f).routine = c.routine := rfl
@[simp] theorem TagChannel.begin_suspended (t : TagTransfer) (f : PanelFrame) (c : TagChannel) :
    (c.begin t f).suspended = c.suspended := rfl
@[simp] theorem TagChannel.begin_sweep (t : TagTransfer) (f : PanelFrame) (c : TagChannel) :
    (c.begin t f).sweep = c.sweep := rfl
@[simp] theorem TagChannel.begin_doneDue (t : TagTransfer) (f : PanelFrame) (c : TagChannel) :
    (c.begin t f).doneDue = c.doneDue := rfl
@[simp] theorem TagChannel.begin_rotationPtr (t : TagTransfer) (f : PanelFrame) (c : TagChannel) :
    (c.begin t f).rotationPtr = c.rotationPtr := rfl
@[simp] theorem TagChannel.begin_rotationDue (t : TagTransfer) (f : PanelFrame) (c : TagChannel) :
    (c.begin t f).rotationDue = c.rotationDue := rfl
@[simp] theorem TagChannel.begin_transfer (t : TagTransfer) (f : PanelFrame) (c : TagChannel) :
    (c.begin t f).transfer = some t := rfl
@[simp] theorem TagChannel.begin_lastFrame (t : TagTransfer) (f : PanelFrame) (c : TagChannel) :
    (c.begin t f).lastFrame = some f := rfl

/-! `Ev.on`. -/

@[simp] theorem Ev.on_toState (f : State → State) (e : Ev) :
    (e.on f).toState = f e.toState := rfl
@[simp] theorem Ev.on_found (f : State → State) (e : Ev) : (e.on f).found = e.found := rfl
@[simp] theorem Ev.on_told (f : State → State) (e : Ev) : (e.on f).told = e.told := rfl
@[simp] theorem Ev.on_deferTags (f : State → State) (e : Ev) : (e.on f).deferTags = e.deferTags := rfl
@[simp] theorem Ev.on_risen (f : State → State) (e : Ev) : (e.on f).risen = e.risen := rfl

/-! `Ev.onStore`. -/

@[simp] theorem Ev.onStore_toState (f : Store → Store) (e : Ev) :
    (e.onStore f).toState = { e.toState with store := f e.store } := rfl
@[simp] theorem Ev.onStore_found (f : Store → Store) (e : Ev) : (e.onStore f).found = e.found := rfl
@[simp] theorem Ev.onStore_told (f : Store → Store) (e : Ev) : (e.onStore f).told = e.told := rfl
@[simp] theorem Ev.onStore_deferTags (f : Store → Store) (e : Ev) : (e.onStore f).deferTags = e.deferTags := rfl
@[simp] theorem Ev.onStore_risen (f : Store → Store) (e : Ev) : (e.onStore f).risen = e.risen := rfl

/-! `Ev.onGraph`. -/

@[simp] theorem Ev.onGraph_toState (f : Graph → Graph) (e : Ev) :
    (e.onGraph f).toState = { e.toState with graph := f e.graph } := rfl
@[simp] theorem Ev.onGraph_found (f : Graph → Graph) (e : Ev) : (e.onGraph f).found = e.found := rfl
@[simp] theorem Ev.onGraph_told (f : Graph → Graph) (e : Ev) : (e.onGraph f).told = e.told := rfl
@[simp] theorem Ev.onGraph_deferTags (f : Graph → Graph) (e : Ev) : (e.onGraph f).deferTags = e.deferTags := rfl
@[simp] theorem Ev.onGraph_risen (f : Graph → Graph) (e : Ev) : (e.onGraph f).risen = e.risen := rfl

/-! `Ev.onRoutes`. -/

@[simp] theorem Ev.onRoutes_toState (f : Routes → Routes) (e : Ev) :
    (e.onRoutes f).toState = { e.toState with routes := f e.routes } := rfl
@[simp] theorem Ev.onRoutes_found (f : Routes → Routes) (e : Ev) : (e.onRoutes f).found = e.found := rfl
@[simp] theorem Ev.onRoutes_told (f : Routes → Routes) (e : Ev) : (e.onRoutes f).told = e.told := rfl
@[simp] theorem Ev.onRoutes_deferTags (f : Routes → Routes) (e : Ev) : (e.onRoutes f).deferTags = e.deferTags := rfl
@[simp] theorem Ev.onRoutes_risen (f : Routes → Routes) (e : Ev) : (e.onRoutes f).risen = e.risen := rfl

/-! `Ev.onProg`. -/

@[simp] theorem Ev.onProg_toState (f : Programme → Programme) (e : Ev) :
    (e.onProg f).toState = { e.toState with prog := f e.prog } := rfl
@[simp] theorem Ev.onProg_found (f : Programme → Programme) (e : Ev) : (e.onProg f).found = e.found := rfl
@[simp] theorem Ev.onProg_told (f : Programme → Programme) (e : Ev) : (e.onProg f).told = e.told := rfl
@[simp] theorem Ev.onProg_deferTags (f : Programme → Programme) (e : Ev) : (e.onProg f).deferTags = e.deferTags := rfl
@[simp] theorem Ev.onProg_risen (f : Programme → Programme) (e : Ev) : (e.onProg f).risen = e.risen := rfl

/-! `Ev.onMuster`. -/

@[simp] theorem Ev.onMuster_toState (f : Muster → Muster) (e : Ev) :
    (e.onMuster f).toState = { e.toState with muster := f e.muster } := rfl
@[simp] theorem Ev.onMuster_found (f : Muster → Muster) (e : Ev) : (e.onMuster f).found = e.found := rfl
@[simp] theorem Ev.onMuster_told (f : Muster → Muster) (e : Ev) : (e.onMuster f).told = e.told := rfl
@[simp] theorem Ev.onMuster_deferTags (f : Muster → Muster) (e : Ev) : (e.onMuster f).deferTags = e.deferTags := rfl
@[simp] theorem Ev.onMuster_risen (f : Muster → Muster) (e : Ev) : (e.onMuster f).risen = e.risen := rfl

/-! `Ev.onCabins`. -/

@[simp] theorem Ev.onCabins_toState (f : CabinTable → CabinTable) (e : Ev) :
    (e.onCabins f).toState = { e.toState with cabinTable := f e.cabinTable } := rfl
@[simp] theorem Ev.onCabins_found (f : CabinTable → CabinTable) (e : Ev) : (e.onCabins f).found = e.found := rfl
@[simp] theorem Ev.onCabins_told (f : CabinTable → CabinTable) (e : Ev) : (e.onCabins f).told = e.told := rfl
@[simp] theorem Ev.onCabins_deferTags (f : CabinTable → CabinTable) (e : Ev) : (e.onCabins f).deferTags = e.deferTags := rfl
@[simp] theorem Ev.onCabins_risen (f : CabinTable → CabinTable) (e : Ev) : (e.onCabins f).risen = e.risen := rfl

/-! `Ev.onScr`. -/

@[simp] theorem Ev.onScr_toState (f : ScreenChannel → ScreenChannel) (e : Ev) :
    (e.onScr f).toState = { e.toState with scr := f e.scr } := rfl
@[simp] theorem Ev.onScr_found (f : ScreenChannel → ScreenChannel) (e : Ev) : (e.onScr f).found = e.found := rfl
@[simp] theorem Ev.onScr_told (f : ScreenChannel → ScreenChannel) (e : Ev) : (e.onScr f).told = e.told := rfl
@[simp] theorem Ev.onScr_deferTags (f : ScreenChannel → ScreenChannel) (e : Ev) : (e.onScr f).deferTags = e.deferTags := rfl
@[simp] theorem Ev.onScr_risen (f : ScreenChannel → ScreenChannel) (e : Ev) : (e.onScr f).risen = e.risen := rfl

/-! `Ev.onTag`. -/

@[simp] theorem Ev.onTag_toState (f : TagChannel → TagChannel) (e : Ev) :
    (e.onTag f).toState = { e.toState with tag := f e.tag } := rfl
@[simp] theorem Ev.onTag_found (f : TagChannel → TagChannel) (e : Ev) : (e.onTag f).found = e.found := rfl
@[simp] theorem Ev.onTag_told (f : TagChannel → TagChannel) (e : Ev) : (e.onTag f).told = e.told := rfl
@[simp] theorem Ev.onTag_deferTags (f : TagChannel → TagChannel) (e : Ev) : (e.onTag f).deferTags = e.deferTags := rfl
@[simp] theorem Ev.onTag_risen (f : TagChannel → TagChannel) (e : Ev) : (e.onTag f).risen = e.risen := rfl

/-! `Ev.onPort`. -/

@[simp] theorem Ev.onPort_toState (f : Port → Port) (e : Ev) :
    (e.onPort f).toState = { e.toState with port := f e.port } := rfl
@[simp] theorem Ev.onPort_found (f : Port → Port) (e : Ev) : (e.onPort f).found = e.found := rfl
@[simp] theorem Ev.onPort_told (f : Port → Port) (e : Ev) : (e.onPort f).told = e.told := rfl
@[simp] theorem Ev.onPort_deferTags (f : Port → Port) (e : Ev) : (e.onPort f).deferTags = e.deferTags := rfl
@[simp] theorem Ev.onPort_risen (f : Port → Port) (e : Ev) : (e.onPort f).risen = e.risen := rfl

/-! `Ev.setClock`. -/

@[simp] theorem Ev.setClock_toState (c : Clock) (e : Ev) :
    (e.setClock c).toState = { e.toState with time := { e.time with clock := c } } := rfl
@[simp] theorem Ev.setClock_found (c : Clock) (e : Ev) : (e.setClock c).found = e.found := rfl
@[simp] theorem Ev.setClock_told (c : Clock) (e : Ev) : (e.setClock c).told = e.told := rfl
@[simp] theorem Ev.setClock_deferTags (c : Clock) (e : Ev) : (e.setClock c).deferTags = e.deferTags := rfl
@[simp] theorem Ev.setClock_risen (c : Clock) (e : Ev) : (e.setClock c).risen = e.risen := rfl

/-! `Ev.tell`. -/

@[simp] theorem Ev.tell_toState (t : Told) (e : Ev) :
    (e.tell t).toState = e.toState := rfl
@[simp] theorem Ev.tell_found (t : Told) (e : Ev) : (e.tell t).found = e.found := rfl
@[simp] theorem Ev.tell_told (t : Told) (e : Ev) : (e.tell t).told = e.told ++ [t] := rfl
@[simp] theorem Ev.tell_deferTags (t : Told) (e : Ev) : (e.tell t).deferTags = e.deferTags := rfl
@[simp] theorem Ev.tell_risen (t : Told) (e : Ev) : (e.tell t).risen = e.risen := rfl

/-! `Ev.notice`. -/

@[simp] theorem Ev.notice_toState (n : Notice) (e : Ev) :
    (e.notice n).toState = e.toState.notice n := rfl
@[simp] theorem Ev.notice_found (n : Notice) (e : Ev) : (e.notice n).found = e.found := rfl
@[simp] theorem Ev.notice_told (n : Notice) (e : Ev) : (e.notice n).told = e.told := rfl
@[simp] theorem Ev.notice_deferTags (n : Notice) (e : Ev) : (e.notice n).deferTags = e.deferTags := rfl
@[simp] theorem Ev.notice_risen (n : Notice) (e : Ev) : (e.notice n).risen = e.risen := rfl

/-! `Ev.answer`. -/

@[simp] theorem Ev.answer_toState (c : Byte) (x : Status) (p : List Byte) (e : Ev) :
    (e.answer c x p).toState = e.toState.answer c x p := rfl
@[simp] theorem Ev.answer_found (c : Byte) (x : Status) (p : List Byte) (e : Ev) : (e.answer c x p).found = e.found := rfl
@[simp] theorem Ev.answer_told (c : Byte) (x : Status) (p : List Byte) (e : Ev) : (e.answer c x p).told = e.told := rfl
@[simp] theorem Ev.answer_deferTags (c : Byte) (x : Status) (p : List Byte) (e : Ev) : (e.answer c x p).deferTags = e.deferTags := rfl
@[simp] theorem Ev.answer_risen (c : Byte) (x : Status) (p : List Byte) (e : Ev) : (e.answer c x p).risen = e.risen := rfl

/-! `Ev.ok`. -/

@[simp] theorem Ev.ok_toState (c : Nat) (p : List Byte) (e : Ev) :
    (e.ok c p).toState = e.toState.answer (byte c) .ok p := rfl
@[simp] theorem Ev.ok_found (c : Nat) (p : List Byte) (e : Ev) : (e.ok c p).found = e.found := rfl
@[simp] theorem Ev.ok_told (c : Nat) (p : List Byte) (e : Ev) : (e.ok c p).told = e.told := rfl
@[simp] theorem Ev.ok_deferTags (c : Nat) (p : List Byte) (e : Ev) : (e.ok c p).deferTags = e.deferTags := rfl
@[simp] theorem Ev.ok_risen (c : Nat) (p : List Byte) (e : Ev) : (e.ok c p).risen = e.risen := rfl

/-! `Ev.okOr`. -/

@[simp] theorem Ev.okOr_toState (a : Bool) (c : Nat) (p : List Byte) (e : Ev) :
    (e.okOr a c p).toState = e.toState.answer (byte c) (if a then .adjusted else .ok) p := rfl
@[simp] theorem Ev.okOr_found (a : Bool) (c : Nat) (p : List Byte) (e : Ev) : (e.okOr a c p).found = e.found := rfl
@[simp] theorem Ev.okOr_told (a : Bool) (c : Nat) (p : List Byte) (e : Ev) : (e.okOr a c p).told = e.told := rfl
@[simp] theorem Ev.okOr_deferTags (a : Bool) (c : Nat) (p : List Byte) (e : Ev) : (e.okOr a c p).deferTags = e.deferTags := rfl
@[simp] theorem Ev.okOr_risen (a : Bool) (c : Nat) (p : List Byte) (e : Ev) : (e.okOr a c p).risen = e.risen := rfl

/-! `Ev.damagedAnswer`. -/

@[simp] theorem Ev.damagedAnswer_toState (c : Nat) (p : Place) (e : Ev) :
    (e.damagedAnswer c p).toState = e.toState.answer (byte c) .damaged p.bytes := rfl
@[simp] theorem Ev.damagedAnswer_found (c : Nat) (p : Place) (e : Ev) : (e.damagedAnswer c p).found = e.found := rfl
@[simp] theorem Ev.damagedAnswer_told (c : Nat) (p : Place) (e : Ev) : (e.damagedAnswer c p).told = e.told := rfl
@[simp] theorem Ev.damagedAnswer_deferTags (c : Nat) (p : Place) (e : Ev) : (e.damagedAnswer c p).deferTags = e.deferTags := rfl
@[simp] theorem Ev.damagedAnswer_risen (c : Nat) (p : Place) (e : Ev) : (e.damagedAnswer c p).risen = e.risen := rfl

/-! An event as it begins. -/

@[simp] theorem Ev.start_toState (s : State) : (Ev.start s).toState = s := rfl
@[simp] theorem Ev.start_found (s : State) : (Ev.start s).found = [] := rfl
@[simp] theorem Ev.start_told (s : State) : (Ev.start s).told = [] := rfl
@[simp] theorem Ev.start_deferTags (s : State) : (Ev.start s).deferTags = false := rfl
@[simp] theorem Ev.start_risen (s : State) : (Ev.start s).risen = [] := rfl

/-! The divider's ticks (R63; log 35), the pin of ATTN (R185), and what a select shifts out (R179). -/

@[simp] theorem TimeBase.advance_refCount (t : TimeBase) : t.advance.refCount = t.refCount + Config.periods64 := rfl
@[simp] theorem TimeBase.advance_clock (t : TimeBase) : t.advance.clock = t.clock := rfl
theorem TimeBase.advance_due16 (t : TimeBase) : t.advance.due16 = true ↔ t.advance.divider % Config.periods16 = 0 := by
  simp only [TimeBase.advance, TimeBase.divider, beq_iff_eq]
theorem TimeBase.advance_due1 (t : TimeBase) : t.advance.due1 = true ↔ t.advance.divider = 0 := by
  simp only [TimeBase.advance, TimeBase.divider, beq_iff_eq]

theorem State.take16_of_none {s : State} (h : s.time.due16 = false) : s.take16 = s := by simp [State.take16, h]
theorem State.take16_of_due {s : State} (h : s.time.due16 = true) : s.take16 = { s with
    time := { s.time with due16 := false }, muster := (List.range Config.lamps).foldl Muster.tickLamp s.muster } := by
  simp [State.take16, h]
theorem State.take1_of_none {s : State} (h : s.time.due1 = false) : s.take1 = s := by simp [State.take1, h]
theorem State.take1_of_due {s : State} (h : s.time.due1 = true) :
    s.take1 = (Ev.start { s with time := { s.time with due1 := false } }).clockTick.finish := by simp [State.take1, h]
theorem State.takeDue_of_none {s : State} (h16 : s.time.due16 = false) (h1 : s.time.due1 = false) : s.takeDue = s := by
  rw [State.takeDue, State.take16_of_none h16, State.take1_of_none h1]

@[simp] theorem State.take16_due16 (s : State) : s.take16.time.due16 = false := by
  cases h : s.time.due16
  · rw [State.take16_of_none h, h]
  · rw [State.take16_of_due h]
@[simp] theorem State.take16_due1 (s : State) : s.take16.time.due1 = s.time.due1 := by unfold State.take16; split <;> rfl
@[simp] theorem State.take16_clock (s : State) : s.take16.time.clock = s.time.clock := by unfold State.take16; split <;> rfl
@[simp] theorem State.take16_store (s : State) : s.take16.store = s.store := by unfold State.take16; split <;> rfl
@[simp] theorem State.take16_graph (s : State) : s.take16.graph = s.graph := by unfold State.take16; split <;> rfl
@[simp] theorem State.take16_routes (s : State) : s.take16.routes = s.routes := by unfold State.take16; split <;> rfl
@[simp] theorem State.take16_prog (s : State) : s.take16.prog = s.prog := by unfold State.take16; split <;> rfl
@[simp] theorem State.take16_cabinTable (s : State) : s.take16.cabinTable = s.cabinTable := by unfold State.take16; split <;> rfl
@[simp] theorem State.take16_mode (s : State) : s.take16.mode = s.mode := by unfold State.take16; split <;> rfl
@[simp] theorem State.take16_composer (s : State) : s.take16.composer = s.composer := by unfold State.take16; split <;> rfl
@[simp] theorem State.take16_scr (s : State) : s.take16.scr = s.scr := by unfold State.take16; split <;> rfl
@[simp] theorem State.take16_tag (s : State) : s.take16.tag = s.tag := by unfold State.take16; split <;> rfl
@[simp] theorem State.take16_port (s : State) : s.take16.port = s.port := by unfold State.take16; split <;> rfl
@[simp] theorem State.take16_freeCount (s : State) : s.take16.freeCount = s.freeCount := by unfold State.take16; split <;> rfl
@[simp] theorem State.take16_pending (s : State) : s.take16.pending = s.pending := by unfold State.take16; split <;> rfl

@[simp] theorem State.attnHigh_eq_false (s : State) : s.attnHigh = false ↔ s.attn = true := by simp [State.attnHigh]

@[simp] theorem SpiOut.byteAt_nothing (i : Nat) : SpiOut.byteAt i .nothing = none := rfl
@[simp] theorem SpiOut.byteAt_idle (i : Nat) : SpiOut.byteAt i .idle = some idleByte := rfl
@[simp] theorem SpiOut.byteAt_frame (i : Nat) (f : List Byte) : SpiOut.byteAt (i + 1) (.frame f) = f[i]? := rfl

end Sys2Proof.Machine
end

