-- ==== Sys2Proof/Laws/Requests.lean ====
section
/-! SUPPORT. What a request can do (R12): refused by its first failing check with nothing else changed, or made whole; what a
read of the store can do; and the empty event. -/

namespace Sys2Proof.Machine

/-! ### Checks (R12). -/

/-- A request of which no check refuses is made whole. -/
theorem request_accepted {s : State} {code : Nat} {checks : List Check} {accept : Ev → Ev}
    (h : ∀ c ∈ checks, c.refuses = false) : request s code checks accept = (accept (Ev.start s)).finish := by
  have hn : firstRefusal checks = none := by
    rw [firstRefusal, List.find?_eq_none]
    intro c hc
    simp [h c hc]
  simp [request, hn]

/-- A request is refused by its first failing check, with nothing changed but the response. -/
theorem request_refused {s : State} {code : Nat} {checks : List Check} {accept : Ev → Ev} {c : Check}
    (h : firstRefusal checks = some c) : request s code checks accept = s.answer (byte code) c.status c.payload := by
  simp [request, h]

/-- Everything a request can do. -/
theorem request_cases (s : State) (code : Nat) (checks : List Check) (accept : Ev → Ev) :
    (∃ c, firstRefusal checks = some c ∧ c ∈ checks ∧ c.refuses = true ∧
      request s code checks accept = s.answer (byte code) c.status c.payload) ∨
    ((∀ c ∈ checks, c.refuses = false) ∧ request s code checks accept = (accept (Ev.start s)).finish) := by
  cases h : firstRefusal checks with
  | none =>
    have hc : ∀ c ∈ checks, c.refuses = false := by
      rw [firstRefusal, List.find?_eq_none] at h
      intro c hc
      simpa using h c hc
    exact .inr ⟨hc, request_accepted hc⟩
  | some c =>
    exact .inl ⟨c, rfl, List.mem_of_find?_eq_some h, List.find?_some h, request_refused h⟩

/-- A request that is made whole, finds nothing and tells nothing ends as it stands. -/
theorem request_answers {s t : State} {code : Nat} {checks : List Check} {accept : Ev → Ev}
    (h : ∀ c ∈ checks, c.refuses = false) (ht : (accept (Ev.start s)).toState = t)
    (hf : (accept (Ev.start s)).found = []) (hq : (accept (Ev.start s)).told = []) : request s code checks accept = t := by
  rw [request_accepted h, Ev.finish_of_quiet hf hq, ht]

/-- A request that is made whole and finds nothing settles what its own changes have made. -/
theorem request_settles {s u : State} {code : Nat} {checks : List Check} {accept : Ev → Ev}
    (h : ∀ c ∈ checks, c.refuses = false) (hu : (accept (Ev.start s)).toState = u)
    (hf : (accept (Ev.start s)).found = []) : u.Settled (request s code checks accept) := by
  rw [request_accepted h, ← hu]
  exact Ev.settled_finish hf

/-- A request that is made whole keeps what its own part keeps. -/
theorem request_keeps {s u : State} {code : Nat} {checks : List Check} {accept : Ev → Ev}
    (h : ∀ c ∈ checks, c.refuses = false) (hk : u.Kept (accept (Ev.start s)).toState) :
    u.Kept (request s code checks accept) := by
  rw [request_accepted h]
  exact hk.trans (Ev.kept_finish _)

theorem requestWith_fields {α : Type} (s : State) (code : Nat) (mc : List Check) (a : α) (checks : α → List Check)
    (accept : α → Ev → Ev) :
    requestWith s code mc (.fields a) checks accept = request s code (mc ++ checks a) (accept a) := rfl

theorem requestWith_malformed {α : Type} (s : State) (code : Nat) (mc : List Check) (checks : α → List Check)
    (accept : α → Ev → Ev) :
    requestWith s code mc .malformed checks accept = request s code (mc ++ [rangeIf true]) id := rfl

/-! ### What each check asks. -/

theorem rangeCheck_refuses (k : Kind) (i : Nat) : (rangeCheck k i).refuses = !kindHas k i := rfl
theorem rangeIf_refuses (b : Bool) : (rangeIf b).refuses = b := rfl

theorem Store.revCheck_refuses (st : Store) (k : Kind) (i : Nat) (rev : Option Nat) :
    (st.revCheck k i rev).refuses = false ↔ st.agrees k i rev := by
  cases rev <;> simp [Store.revCheck, Store.agrees]

theorem Store.presentCheck_refuses (st : Store) (k : Kind) (i : Nat) :
    (st.presentCheck k i).refuses = !st.present k i := rfl

theorem Store.damageCheck_refuses (st : Store) (k : Kind) (i : Nat) :
    (st.damageCheck k i).refuses = st.isDamaged (.slot k i) := rfl

theorem Store.nodeCheck_refuses (st : Store) (n : Nat) : (st.nodeCheck n).refuses = !st.present .node n := rfl

theorem State.notInMuster_refuses (s : State) : s.notInMuster.refuses = decide (s.mode.mode = .muster) := rfl
theorem State.normalOnly_refuses (s : State) : s.normalOnly.refuses = decide (s.mode.mode ≠ .normal) := rfl
theorem State.sessionOnly_refuses (s : State) : s.sessionOnly.refuses = decide (s.mode.mode = .normal) := rfl
theorem State.lockedIf_refuses (s : State) (b : Bool) : (s.lockedIf b).refuses = (s.graph.lock && b) := rfl

/-! ### Reads (R4, R5, R6). -/

theorem Store.afterReading_nil (st : Store) : st.afterReading [] = st := by
  have : max st.corrected (min 65535 st.corrected) = st.corrected := by omega
  simp [Store.afterReading, this]

theorem Store.afterReading_cons_clean {st : Store} {w : Nat} (ws : List Nat) (h : Table.get .clean st.ramErrors w = .clean) :
    st.afterReading (w :: ws) = st.afterReading ws := by
  simp [Store.afterReading, h]

theorem Store.afterReading_cons_single {st : Store} {w : Nat} (ws : List Nat)
    (h : Table.get .clean st.ramErrors w = .single) :
    (st.correct w false).afterReading ws = st.afterReading (w :: ws) := by
  have hmax : ∀ n, max (countTo 65535 st.corrected) (min 65535 (countTo 65535 st.corrected + n)) =
      max st.corrected (min 65535 (st.corrected + (n + 1))) := by
    intro n; simp only [countTo]; split <;> omega
  simp only [Store.afterReading, List.filter_cons, h, decide_true, if_true, List.map_cons, List.length_cons,
    Store.correct_ramErrors, Store.correct_corrected, Store.correct_writeBacks, List.append_assoc, hmax]
  rfl

theorem Store.readList_of_readable {st : Store} (p : Place) {ws : List Nat} (h : st.readable ws) :
    Store.readList p false ws st = (st.afterReading ws, .content) := by
  induction ws generalizing st with
  | nil => rw [Store.afterReading_nil]; rfl
  | cons w rest ih =>
    have hr : st.readable rest := fun x hx => h x (by simp [hx])
    simp only [Store.readList]
    split
    · rename_i hw
      rw [Store.afterReading_cons_clean _ hw]
      exact ih hr
    · rename_i hw
      rw [← Store.afterReading_cons_single _ hw]
      exact ih (st := st.correct w false) hr
    · rename_i hw
      exact absurd hw (h w (by simp))

/-- A read of readable words of an undamaged place answers its content (R4, R5). -/
theorem Store.read_of_readable {st : Store} {p : Place} {ws : List Nat} (hd : st.isDamaged p = false) (h : st.readable ws) :
    st.read p ws = (st.afterReading ws, .content) := by
  simp only [Store.read, hd, Bool.false_eq_true, if_false]
  exact Store.readList_of_readable p h

theorem Ev.read_of_readable {e : Ev} {p : Place} {ws : List Nat} (hd : e.store.isDamaged p = false)
    (h : e.store.readable ws) : e.read p ws = (e.onStore fun st => st.afterReading ws, .content) := by
  simp only [Ev.read, Store.read_of_readable hd h]; rfl

/-- With no error in the RAM, every word is readable and reading changes nothing. -/
theorem Store.readable_of_clean {st : Store} (h : st.ramErrors = []) (ws : List Nat) : st.readable ws := by
  intro w _; simp [h]

theorem Store.afterReading_of_clean {st : Store} (h : st.ramErrors = []) (ws : List Nat) : st.afterReading ws = st := by
  induction ws with
  | nil => exact st.afterReading_nil
  | cons w rest ih => rw [Store.afterReading_cons_clean _ (by simp [h]), ih]

theorem Store.kept_afterReading (st : Store) {ws : List Nat} (h : st.readable ws) : st.Kept (st.afterReading ws) := by
  have := st.kept_readList (.slot .node 0) ws
  rwa [Store.readList_of_readable _ h] at this

/-! ### Answers. -/

theorem State.Kept.answer {a b : State} (h : a.Kept b) (c : Byte) (x : Status) (p : List Byte) :
    (a.answer c x p).Kept (b.answer c x p) :=
  ⟨h.store, h.graph, h.routes, h.time, h.prog, h.muster, h.cabinTable, h.mode, h.scr, h.tag,
    ⟨h.port.requestBuffer, rfl, h.port.enables, h.port.master, h.port.resetCause, rfl, h.port.latched⟩,
    h.freeCount, h.pending⟩

theorem State.answer_answer (s : State) (c c' : Byte) (x x' : Status) (p p' : List Byte) :
    (s.answer c x p).answer c' x' p' = s.answer c' x' p' := rfl

/-- An event that has only answered ends as it stands. -/
theorem Ev.finish_ok (s : State) (f : State → State) (code : Nat) (p : List Byte) :
    (((Ev.start s).on f).ok code p).finish = (f s).answer (byte code) .ok p := Ev.finish_of_quiet rfl rfl

/-! ### A request that reads a slot (R7, R36, R88, R97, R124, R148). -/

theorem Ev.getSlot_of_readable {s : State} {code : Nat} {k : Kind} {i : Nat} {fields : State → List Byte}
    (hp : s.store.present k i = true) (hd : s.store.isDamaged (.slot k i) = false)
    (hr : s.store.readable (Place.slot k i).words) :
    ((Ev.start s).getSlot code k i fields).finish =
      { s with store := s.store.afterReading (Place.slot k i).words }.answer (byte code) .ok
        (fields { s with store := s.store.afterReading (Place.slot k i).words }) := by
  simp only [Ev.getSlot, Ev.readWhole, Ev.start_toState, hp, Bool.not_true, Bool.false_eq_true, if_false]
  rw [Ev.read_of_readable (by simpa using hd) (by simpa using hr)]
  exact Ev.finish_of_quiet rfl rfl

theorem Ev.getSlot_of_absent {s : State} {code : Nat} {k : Kind} {i : Nat} {fields : State → List Byte}
    (hp : s.store.present k i = false) :
    ((Ev.start s).getSlot code k i fields).finish = s.answer (byte code) .absent (num1 (s.store.rev k i)) := by
  simp only [Ev.getSlot, Ev.start_toState, hp, Bool.not_false, if_true]
  exact Ev.finish_of_quiet rfl rfl

theorem Ev.getSlot_of_damaged {s : State} {code : Nat} {k : Kind} {i : Nat} {fields : State → List Byte}
    (hp : s.store.present k i = true) (hd : s.store.isDamaged (.slot k i) = true) :
    ((Ev.start s).getSlot code k i fields).finish = s.answer (byte code) .damaged (Place.slot k i).bytes := by
  have : (Ev.start s).read (.slot k i) (Place.slot k i).words = (Ev.start s, .damaged) := by
    simp [Ev.read, Store.read, hd, Ev.start]
  simp only [Ev.getSlot, Ev.readWhole, Ev.start_toState, hp, Bool.not_true, Bool.false_eq_true, if_false, this]
  exact Ev.finish_of_quiet rfl rfl

end Sys2Proof.Machine
end

