-- ==== Sys2Proof/Laws/Routes.lean ====
section
/-! SUPPORT. What graph changes do to the columns and to the computation in flight (R49, R54). -/

namespace Sys2Proof.Machine

theorem Ev.calm_markAll (e : Ev) : e.Calm e.markAll := Ev.calm_foldl (fun e t => Ev.calm_markColumn t e) _ e

theorem Ev.col_markList (ts : List Nat) (e : Ev) (c : Nat) :
    (ts.foldl (fun e t => e.markColumn t) e).routes.col c = if c ∈ ts then .stale else e.routes.col c := by
  induction ts generalizing e with
  | nil => simp
  | cons t rest ih =>
    rw [List.foldl_cons, ih, Ev.col_markColumn]
    by_cases h1 : c = t <;> by_cases h2 : c ∈ rest <;> simp [h1, h2]

/-- Marking every present column STALE (R49). -/
theorem Ev.col_markAll (e : Ev) (c : Nat) :
    e.markAll.routes.col c = if c < Config.targets ∧ e.routes.col c ≠ .empty then .stale else e.routes.col c := by
  simp only [Ev.markAll, Ev.col_markList, Routes.presentColumns, List.mem_filter, List.mem_range, decide_eq_true_eq]

/-- A graph change marks every present column STALE (R49). -/
theorem Ev.col_graphChanged (e : Ev) (c : Nat) :
    e.graphChanged.routes.col c = if c < Config.targets ∧ e.routes.col c ≠ .empty then .stale else e.routes.col c :=
  Ev.col_markAll _ c

/-- A graph change overtakes the computation in flight (R54). -/
theorem Ev.engine_graphChanged {e : Ev} {c : Computation} (h : e.routes.engine = some c) :
    e.graphChanged.routes.engine = some { c with overtaken := true } :=
  (Ev.calm_markAll (e.onRoutes Routes.overtake)).engine _ (by simp [Ev.onRoutes, Routes.overtake, h])

/-- A column that is STALE stays STALE through the end of an event. -/
theorem State.Kept.col_stale {a b : State} (h : a.Kept b) {c : Nat} (hc : a.routes.col c = .stale) :
    b.routes.col c = .stale := by
  rcases h.routes.col c with h' | ⟨_, h'⟩
  · rw [h', hc]
  · exact h'

/-- The end of an event that has found nothing leaves a computation in flight as it is. -/
theorem Ev.engine_finish {e : Ev} (hf : e.found = []) {c : Computation} (h : e.routes.engine = some c) :
    e.finish.routes.engine = some c := (Ev.settled_finish hf).engine c h

/-- What a withdrawal followed by a graph change, an answer and the end of the event leaves. -/
theorem Ev.graphChange_spec {e : Ev} (hf : e.found = []) (g : Graph) (broken : BrokenHops) (told : Told) (code : Nat)
    (p : List Byte) :
    let t := ((((e.withdraw g broken).graphChanged).tell told).ok code p).finish
    (e.toState.answer (byte code) .ok p).Kept t ∧
    (∀ c < Config.targets, e.routes.col c ≠ .empty → t.routes.col c = .stale) ∧
    (∀ c, e.routes.engine = some c → t.routes.engine = some { c with overtaken := true }) := by
  have hk : e.Kept (e.withdraw g broken).graphChanged := (Ev.kept_withdraw _ _ _).trans (Ev.kept_graphChanged _)
  have hend := Ev.kept_finish ((((e.withdraw g broken).graphChanged).tell told).ok code p)
  simp only [Ev.ok_toState, Ev.tell_toState] at hend
  refine ⟨(hk.answer _ _ _).trans hend, fun c hc hne => ?_, fun c hc => ?_⟩
  · refine (Ev.kept_finish _).col_stale ?_
    have := (Ev.kept_withdraw g broken e).col_ne hne
    simp [Ev.col_graphChanged, hc, this]
  · refine Ev.engine_finish ?_ ?_
    · simp [Ev.found_graphChanged, Ev.found_withdraw, hf]
    · simp only [Ev.ok_toState, State.answer_routes, Ev.tell_toState]
      exact Ev.engine_graphChanged ((Ev.calm_withdraw g broken e).engine c hc)

end Sys2Proof.Machine
end

