-- ==== Sys2Proof/Laws/Store.lean ====
section
/-! SUPPORT. The record store keeps its canonical form at each of its operations, and reset has it. -/

namespace Sys2Proof.Machine

/-- The canonical form as its parts. -/
theorem Store.wf_iff (st : Store) : st.wf = true ↔
    Table.wf {} st.dir = true ∧ Table.wf false st.damage = true ∧ Table.wf {} st.nodes = true ∧
      Table.wf {} st.segments = true ∧ Table.wf {} st.targets = true ∧ Table.wf {} st.stations = true ∧
      Table.wf {} st.entrances = true ∧ Table.wf {} st.entries = true ∧ Table.wf {} st.cabins = true ∧
      Table.wf {} st.screens = true ∧ Table.wf [] st.phrases = true ∧ Table.wf {} st.cells = true ∧
      Table.wf .clean st.ramErrors = true := by
  simp only [Store.wf, Bool.and_eq_true, and_assoc]

/-- Equal tables are canonical together; the other fields do not matter. -/
theorem Store.wf_with {st : Store} (h : st.wf = true) {dir : Table DirEntry} {damage : Table Bool} {errors : Table WordError}
    {cells : Table Cell} {wb : List WriteBack} {c : Nat} {f : Option Place} {a : Bool} {sw : Option Sweep} {l : Option LastSweep}
    (hd : Table.wf {} dir = true) (hm : Table.wf false damage = true) (he : Table.wf .clean errors = true)
    (hc : Table.wf {} cells = true) :
    Store.wf { st with dir := dir, damage := damage, ramErrors := errors, cells := cells, writeBacks := wb, corrected := c,
                       firstDamaged := f, alert := a, sweep := sw, lastSweep := l } = true := by
  rw [Store.wf_iff] at h ⊢
  obtain ⟨_, _, h1, h2, h3, h4, h5, h6, h7, h8, h9, _, _⟩ := h
  exact ⟨hd, hm, h1, h2, h3, h4, h5, h6, h7, h8, h9, hc, he⟩

theorem Store.wf_writeWords {st : Store} (ws : List Nat) (h : st.wf = true) : (st.writeWords ws).wf = true := by
  have p := st.wf_iff.mp h
  exact wf_with h p.1 p.2.1 (Table.wf_setAll ws _ p.2.2.2.2.2.2.2.2.2.2.2.2) p.2.2.2.2.2.2.2.2.2.2.2.1

theorem Store.wf_setDamaged {st : Store} (p : Place) (d : Bool) (h : st.wf = true) : (st.setDamaged p d).wf = true := by
  have q := st.wf_iff.mp h
  exact wf_with h q.1 (Table.wf_set _ d q.2.1) q.2.2.2.2.2.2.2.2.2.2.2.2 q.2.2.2.2.2.2.2.2.2.2.2.1

theorem Store.wf_bump {st : Store} (k : Kind) (i : Nat) (b : Bool) (h : st.wf = true) : (st.bump k i b).wf = true := by
  have q := st.wf_iff.mp h
  exact wf_with h (Table.wf_set _ _ q.1) q.2.1 q.2.2.2.2.2.2.2.2.2.2.2.2 q.2.2.2.2.2.2.2.2.2.2.2.1

theorem Store.wf_putSlot {st : Store} (k : Kind) (i : Nat) (h : st.wf = true) : (st.putSlot k i).wf = true :=
  wf_bump k i true (wf_setDamaged _ false (wf_writeWords _ h))

theorem Store.wf_removeSlot {st : Store} (k : Kind) (i : Nat) (h : st.wf = true) : (st.removeSlot k i).wf = true :=
  wf_bump k i false (wf_setDamaged _ false h)

theorem Store.wf_changeSlot {st : Store} (k : Kind) (i : Nat) (ws : List Nat) (h : st.wf = true) :
    (st.changeSlot k i ws).wf = true := wf_bump k i true (wf_writeWords ws h)

theorem Store.wf_writeCells (t : Nat) (f : Nat → Cell) (xs : List Nat) {st : Store} (h : st.wf = true) :
    (st.writeCells t xs f).wf = true := by
  induction xs generalizing st with
  | nil => exact h
  | cons x xs ih =>
    have q := st.wf_iff.mp h
    exact ih (wf_setDamaged _ false (wf_writeWords _ (wf_with h q.1 q.2.1 q.2.2.2.2.2.2.2.2.2.2.2.2
      (Table.wf_set _ (f x) q.2.2.2.2.2.2.2.2.2.2.2.1))))

theorem Store.wf_emptyCells (t : Nat) (xs : List Nat) {st : Store} (h : st.wf = true) : (st.emptyCells t xs).wf = true :=
  wf_writeCells t _ xs h

theorem Store.wf_correct {st : Store} (w : Nat) (b : Bool) (h : st.wf = true) : (st.correct w b).wf = true := h

theorem Store.wf_find {st : Store} (p : Place) (b : Bool) (h : st.wf = true) : (st.find p b).wf = true := by
  have q := st.wf_iff.mp h
  exact wf_with h q.1 (Table.wf_set _ _ q.2.1) q.2.2.2.2.2.2.2.2.2.2.2.2 q.2.2.2.2.2.2.2.2.2.2.2.1

theorem Store.wf_readList (p : Place) (b : Bool) (ws : List Nat) {st : Store} (h : st.wf = true) :
    (Store.readList p b ws st).1.wf = true := by
  induction ws generalizing st with
  | nil => exact h
  | cons w ws ih =>
    simp only [Store.readList]
    split
    · exact ih h
    · exact ih (wf_correct w b h)
    · exact wf_find p b h

theorem Store.wf_read {st : Store} (p : Place) (ws : List Nat) (b : Bool) (h : st.wf = true) : (st.read p ws b).1.wf = true := by
  unfold Store.read
  split
  · exact h
  · exact wf_readList p b ws h

/-- A record table of the store after a write of one slot's record. -/
theorem Store.wf_setNode {st : Store} (i : Nat) (r : NodeRec) (h : st.wf = true) :
    Store.wf { st with nodes := Table.set {} st.nodes i r } = true := by
  have q := st.wf_iff.mp h
  exact (Store.wf_iff _).mpr ⟨q.1, q.2.1, Table.wf_set _ _ q.2.2.1, q.2.2.2⟩

theorem Store.wf_setSegment {st : Store} (i : Nat) (r : SegRec) (h : st.wf = true) :
    Store.wf { st with segments := Table.set {} st.segments i r } = true := by
  have q := st.wf_iff.mp h
  exact (Store.wf_iff _).mpr ⟨q.1, q.2.1, q.2.2.1, Table.wf_set _ _ q.2.2.2.1, q.2.2.2.2⟩

theorem Store.wf_setTarget {st : Store} (i : Nat) (r : TargetRec) (h : st.wf = true) :
    Store.wf { st with targets := Table.set {} st.targets i r } = true := by
  obtain ⟨a, b, c, d, e, f⟩ := st.wf_iff.mp h
  exact (Store.wf_iff _).mpr ⟨a, b, c, d, Table.wf_set _ _ e, f⟩

theorem Store.wf_setStation {st : Store} (i : Nat) (r : StationRec) (h : st.wf = true) :
    Store.wf { st with stations := Table.set {} st.stations i r } = true := by
  obtain ⟨a, b, c, d, e, f, g⟩ := st.wf_iff.mp h
  exact (Store.wf_iff _).mpr ⟨a, b, c, d, e, Table.wf_set _ _ f, g⟩

theorem Store.wf_setEntrance {st : Store} (i : Nat) (r : EntranceRec) (h : st.wf = true) :
    Store.wf { st with entrances := Table.set {} st.entrances i r } = true := by
  obtain ⟨a, b, c, d, e, f, g, k⟩ := st.wf_iff.mp h
  exact (Store.wf_iff _).mpr ⟨a, b, c, d, e, f, Table.wf_set _ _ g, k⟩

theorem Store.wf_setEntry {st : Store} (i : Nat) (r : EntryRec) (h : st.wf = true) :
    Store.wf { st with entries := Table.set {} st.entries i r } = true := by
  obtain ⟨a, b, c, d, e, f, g, k, l⟩ := st.wf_iff.mp h
  exact (Store.wf_iff _).mpr ⟨a, b, c, d, e, f, g, Table.wf_set _ _ k, l⟩

theorem Store.wf_setCabin {st : Store} (i : Nat) (r : CabinRec) (h : st.wf = true) :
    Store.wf { st with cabins := Table.set {} st.cabins i r } = true := by
  obtain ⟨a, b, c, d, e, f, g, k, l, m⟩ := st.wf_iff.mp h
  exact (Store.wf_iff _).mpr ⟨a, b, c, d, e, f, g, k, Table.wf_set _ _ l, m⟩

theorem Store.wf_setScreen {st : Store} (i : Nat) (r : ScreenRec) (h : st.wf = true) :
    Store.wf { st with screens := Table.set {} st.screens i r } = true := by
  obtain ⟨a, b, c, d, e, f, g, k, l, m, n⟩ := st.wf_iff.mp h
  exact (Store.wf_iff _).mpr ⟨a, b, c, d, e, f, g, k, l, Table.wf_set _ _ m, n⟩

theorem Store.wf_setPhrase {st : Store} (i : Nat) (t : Text) (h : st.wf = true) :
    Store.wf { st with phrases := Table.set [] st.phrases i t } = true := by
  obtain ⟨a, b, c, d, e, f, g, k, l, m, n, o⟩ := st.wf_iff.mp h
  exact (Store.wf_iff _).mpr ⟨a, b, c, d, e, f, g, k, l, m, Table.wf_set _ _ n, o⟩

theorem Store.reset_wf : State.reset.store.wf = true := by decide

end Sys2Proof.Machine
end

