-- ==== Sys2Proof/Tests/Slice0.lean ====
section
/-! SUPPORT. Tests: ill-formed commands that the checks refuse, commands read from bytes written out by hand, single steps
with results worked out from the manual, and for each statement with hypotheses a state and operands that meet them. -/

namespace Sys2Proof.Tests

set_option Elab.async false

open Sys2Proof.Machine

/-! ### Ill-formed commands: one for each check of WellFormed. -/

def goodPutNode : PutNode :=
  { index := 0, rev := none, deck := 0 }

theorem test_wf_putNode : Instr.wf (.putNode (.fields goodPutNode)) = true ∧
    [{ goodPutNode with index := 256 },
      { goodPutNode with rev := some 256 },
      { goodPutNode with deck := 256 }].all (fun a : PutNode => !Instr.wf (.putNode (.fields a))) = true := by decide +kernel

def goodPutSegment : PutSegment :=
  { index := 0, rev := none, endA := 0, endB := 1, length := 1, kind := 0, direction := 0, availability := 0,
    arrowA := 0, arrowB := 0 }

theorem test_wf_putSegment : Instr.wf (.putSegment (.fields goodPutSegment)) = true ∧
    [{ goodPutSegment with index := 65536 },
      { goodPutSegment with rev := some 256 },
      { goodPutSegment with endA := 256 },
      { goodPutSegment with endB := 256 },
      { goodPutSegment with length := 256 },
      { goodPutSegment with kind := 256 },
      { goodPutSegment with direction := 256 },
      { goodPutSegment with availability := 256 },
      { goodPutSegment with arrowA := 256 },
      { goodPutSegment with arrowB := 256 }].all (fun a : PutSegment => !Instr.wf (.putSegment (.fields a))) = true := by decide +kernel

def goodSetSegmentState : SetSegmentState :=
  { index := 0, rev := none, availability := 0 }

theorem test_wf_setSegmentState : Instr.wf (.setSegmentState (.fields goodSetSegmentState)) = true ∧
    [{ goodSetSegmentState with index := 65536 },
      { goodSetSegmentState with rev := some 256 },
      { goodSetSegmentState with availability := 256 }].all (fun a : SetSegmentState => !Instr.wf (.setSegmentState (.fields a))) = true := by decide +kernel

def goodPutTarget : PutTarget :=
  { index := 16, rev := none, node := 0, phrase := 0, kind := 0 }

theorem test_wf_putTarget : Instr.wf (.putTarget (.fields goodPutTarget)) = true ∧
    [{ goodPutTarget with index := 256 },
      { goodPutTarget with rev := some 256 },
      { goodPutTarget with node := 256 },
      { goodPutTarget with phrase := 256 },
      { goodPutTarget with kind := 256 }].all (fun a : PutTarget => !Instr.wf (.putTarget (.fields a))) = true := by decide +kernel

def goodLookUp : LookUp :=
  { target := 0, node := 0 }

theorem test_wf_lookUpRoute : Instr.wf (.lookUpRoute (.fields goodLookUp)) = true ∧
    [{ goodLookUp with target := 256 },
      { goodLookUp with node := 256 }].all (fun a : LookUp => !Instr.wf (.lookUpRoute (.fields a))) = true := by decide +kernel

def goodSetClock : SetClock :=
  { day := 0, minute := 0, second := 0 }

theorem test_wf_setClock : Instr.wf (.setClock (.fields goodSetClock)) = true ∧
    [{ goodSetClock with day := 256 },
      { goodSetClock with minute := 65536 },
      { goodSetClock with second := 256 }].all (fun a : SetClock => !Instr.wf (.setClock (.fields a))) = true := by decide +kernel

def goodShiftClock : ShiftClock :=
  { direction := 0, amount := 15 }

theorem test_wf_shiftClock : Instr.wf (.shiftClock (.fields goodShiftClock)) = true ∧
    [{ goodShiftClock with direction := 256 },
      { goodShiftClock with amount := 256 }].all (fun a : ShiftClock => !Instr.wf (.shiftClock (.fields a))) = true := by decide +kernel

def goodAddEntry : AddEntry :=
  { rev := none, title := [0x41#16], venue := none, start := 0, duration := 5, lead := 0, audience := 0, highlight := 0 }

theorem test_wf_addEntry : Instr.wf (.addEntry (.fields goodAddEntry)) = true ∧
    [{ goodAddEntry with rev := some 256 },
      { goodAddEntry with title := List.replicate 256 0x41#16 },
      { goodAddEntry with venue := some 255 },
      { goodAddEntry with start := 16777216 },
      { goodAddEntry with duration := 65536 },
      { goodAddEntry with lead := 256 },
      { goodAddEntry with audience := 256 },
      { goodAddEntry with highlight := 256 }].all (fun a : AddEntry => !Instr.wf (.addEntry (.fields a))) = true := by decide +kernel

def goodChangeEntry : ChangeEntry :=
  { index := 0, rev := none, title := none, venue := none, start := none, duration := none, lead := some 0, audience := none,
    highlight := none }

theorem test_wf_changeEntry : Instr.wf (.changeEntry (.fields goodChangeEntry)) = true ∧
    [{ goodChangeEntry with index := 256 },
      { goodChangeEntry with rev := some 256 },
      { goodChangeEntry with title := some (List.replicate 256 0x41#16) },
      { goodChangeEntry with venue := some (some 255) },
      { goodChangeEntry with start := some 16777216 },
      { goodChangeEntry with duration := some 65536 },
      { goodChangeEntry with lead := some 256 },
      { goodChangeEntry with audience := some 256 },
      { goodChangeEntry with highlight := some 256 },
      { goodChangeEntry with lead := none }].all (fun a : ChangeEntry => !Instr.wf (.changeEntry (.fields a))) = true := by decide +kernel

def goodListEntries : ListEntries :=
  { minute := 0, handle := none }

theorem test_wf_listEntries : Instr.wf (.listEntries (.fields goodListEntries)) = true ∧
    [{ goodListEntries with minute := 16777216 },
      { goodListEntries with handle := some 65535 }].all (fun a : ListEntries => !Instr.wf (.listEntries (.fields a))) = true := by decide +kernel

def goodPutStation : PutStation :=
  { index := 0, rev := none, node := 0, capacity := 0, nearFull := 50, overflow := none, lamp := none, phrase := 0 }

theorem test_wf_putStation : Instr.wf (.putStation (.fields goodPutStation)) = true ∧
    [{ goodPutStation with index := 256 },
      { goodPutStation with rev := some 256 },
      { goodPutStation with node := 256 },
      { goodPutStation with capacity := 65536 },
      { goodPutStation with nearFull := 256 },
      { goodPutStation with overflow := some 255 },
      { goodPutStation with lamp := some 255 },
      { goodPutStation with phrase := 256 }].all (fun a : PutStation => !Instr.wf (.putStation (.fields a))) = true := by decide +kernel

def goodPutEntrance : PutEntrance :=
  { index := 0, rev := none, station := none, filter := 0, orientation := 0 }

theorem test_wf_putEntrance : Instr.wf (.putEntrance (.fields goodPutEntrance)) = true ∧
    [{ goodPutEntrance with index := 256 },
      { goodPutEntrance with rev := some 256 },
      { goodPutEntrance with station := some 255 },
      { goodPutEntrance with filter := 256 },
      { goodPutEntrance with orientation := 256 }].all (fun a : PutEntrance => !Instr.wf (.putEntrance (.fields a))) = true := by decide +kernel

def goodSetHeadCount : SetHeadCount :=
  { station := 0, count := 0 }

theorem test_wf_setHeadCount : Instr.wf (.setHeadCount (.fields goodSetHeadCount)) = true ∧
    [{ goodSetHeadCount with station := 256 },
      { goodSetHeadCount with count := 65536 }].all (fun a : SetHeadCount => !Instr.wf (.setHeadCount (.fields a))) = true := by decide +kernel

def goodPutCabin : PutCabin :=
  { index := 0, rev := none, label := [0x41#16], node := 0, station := 0, berths := 1, assist := 0, bank := 0, service := 0,
    occupant := [], greeting := { text := [], expiry := none } }

theorem test_wf_putCabin : Instr.wf (.putCabin (.fields goodPutCabin)) = true ∧
    [{ goodPutCabin with index := 65536 },
      { goodPutCabin with rev := some 256 },
      { goodPutCabin with label := List.replicate 256 0x41#16 },
      { goodPutCabin with node := 256 },
      { goodPutCabin with station := 256 },
      { goodPutCabin with berths := 256 },
      { goodPutCabin with assist := 256 },
      { goodPutCabin with bank := 256 },
      { goodPutCabin with service := 256 },
      { goodPutCabin with occupant := List.replicate 256 0x41#16 },
      { goodPutCabin with greeting := { text := List.replicate 256 0x41#16, expiry := none } },
      { goodPutCabin with greeting := { text := [], expiry := some 16777215 } }].all (fun a : PutCabin => !Instr.wf (.putCabin (.fields a))) = true := by decide +kernel

def goodChangeCabin : ChangeCabin :=
  { index := 0, rev := none, node := some 0, station := none, berths := none, assist := none, bank := none, service := none,
    occupant := none, greeting := none }

theorem test_wf_changeCabin : Instr.wf (.changeCabin (.fields goodChangeCabin)) = true ∧
    [{ goodChangeCabin with index := 65536 },
      { goodChangeCabin with rev := some 256 },
      { goodChangeCabin with node := some 256 },
      { goodChangeCabin with station := some 256 },
      { goodChangeCabin with berths := some 256 },
      { goodChangeCabin with assist := some 256 },
      { goodChangeCabin with bank := some 256 },
      { goodChangeCabin with service := some 256 },
      { goodChangeCabin with occupant := some (List.replicate 256 0x41#16) },
      { goodChangeCabin with greeting := some { text := [], expiry := some 16777215 } },
      { goodChangeCabin with node := none }].all (fun a : ChangeCabin => !Instr.wf (.changeCabin (.fields a))) = true := by decide +kernel

def goodSetService : SetService :=
  { index := 0, rev := none, service := 0 }

theorem test_wf_setService : Instr.wf (.setService (.fields goodSetService)) = true ∧
    [{ goodSetService with index := 65536 },
      { goodSetService with rev := some 256 },
      { goodSetService with service := 256 }].all (fun a : SetService => !Instr.wf (.setService (.fields a))) = true := by decide +kernel

def goodGetCabin : GetCabin :=
  { index := 0, part := none }

theorem test_wf_getCabin : Instr.wf (.getCabin (.fields goodGetCabin)) = true ∧
    [{ goodGetCabin with index := 65536 },
      { goodGetCabin with part := some 256 }].all (fun a : GetCabin => !Instr.wf (.getCabin (.fields a))) = true := by decide +kernel

def goodPutScreen : PutScreen :=
  { index := 0, rev := none, node := 0, kind := 0, bank := 0, targets := [], filter := 0, lines := 0, station := none, beacon := 0 }

theorem test_wf_putScreen : Instr.wf (.putScreen (.fields goodPutScreen)) = true ∧
    [{ goodPutScreen with index := 256 },
      { goodPutScreen with rev := some 256 },
      { goodPutScreen with node := 256 },
      { goodPutScreen with kind := 256 },
      { goodPutScreen with bank := 256 },
      { goodPutScreen with targets := List.replicate 256 0 },
      { goodPutScreen with targets := [256] },
      { goodPutScreen with filter := 256 },
      { goodPutScreen with lines := 256 },
      { goodPutScreen with station := some 255 },
      { goodPutScreen with beacon := 256 }].all (fun a : PutScreen => !Instr.wf (.putScreen (.fields a))) = true := by decide +kernel

def goodReadContent : ReadContent :=
  { index := 0, first := none }

theorem test_wf_readScreenContent : Instr.wf (.readScreenContent (.fields goodReadContent)) = true ∧
    [{ goodReadContent with index := 256 },
      { goodReadContent with first := some 255 }].all (fun a : ReadContent => !Instr.wf (.readScreenContent (.fields a))) = true := by decide +kernel

def goodPutPhrase : PutPhrase :=
  { bank := 0, phrase := 16, rev := none, text := [] }

theorem test_wf_putPhrase : Instr.wf (.putPhrase (.fields goodPutPhrase)) = true ∧
    [{ goodPutPhrase with bank := 256 },
      { goodPutPhrase with phrase := 256 },
      { goodPutPhrase with rev := some 256 },
      { goodPutPhrase with text := List.replicate 256 0x41#16 }].all (fun a : PutPhrase => !Instr.wf (.putPhrase (.fields a))) = true := by decide +kernel

def goodPhraseName : PhraseName :=
  { bank := 0, phrase := 0 }

theorem test_wf_getPhrase : Instr.wf (.getPhrase (.fields goodPhraseName)) = true ∧
    [{ goodPhraseName with bank := 256 },
      { goodPhraseName with phrase := 256 }].all (fun a : PhraseName => !Instr.wf (.getPhrase (.fields a))) = true := by decide +kernel

/-- Names, slots and single numbers that pass their bytes. -/
theorem test_wf_slots :
    [ Instr.readSlot (.fields { kind := 256, index := 0 }), .listDamage (.fields { kind := 0, index := 65536 }),
      .readReferences (.fields { kind := 256, index := 0 }), .removeNode (.fields { index := 256, rev := none }),
      .removeTarget (.fields { index := 16, rev := some 256 }), .cancelEntry (.fields { index := 256, rev := none }),
      .retireEntry (.fields { index := 0, rev := some 256 }), .removeStation (.fields { index := 256, rev := none }),
      .removeEntrance (.fields { index := 256, rev := none }), .removeScreen (.fields { index := 256, rev := none }),
      .removeSegment (.fields { index := 65536, rev := none }), .removeCabin (.fields { index := 0, rev := some 256 }),
      .getNode (.fields 256), .getTarget (.fields 256), .getEntry (.fields 256), .getStation (.fields 256),
      .readStation (.fields 256), .getEntrance (.fields 256), .readEntrance (.fields 256), .secure (.fields 256),
      .markUnsafe (.fields 256), .reopen (.fields 256), .readRoll (.fields 256), .getScreen (.fields 256),
      .readScreenLink (.fields 256), .setLinger (.fields 256), .clearNotices (.fields 256), .setNoticeEnables (.fields 256),
      .setMasterEnable (.fields 256), .getSegment (.fields 65536), .readTagLink (.fields 65536),
      .findCabin (.fields (List.replicate 256 0x41#16)) ].all (fun i => !i.wf) = true := by decide +kernel

/-- Steps of the part itself, panel answers and frames that no form or capacity holds. -/
theorem test_wf_events :
    [ Instr.stoppedFrame [], .stoppedFrame [0xF0#8], .correctionWriteBack 32072, .takenChange 32 true true,
      .stuckBeamFault 32 true true, .faultCleared 32 false false, .lampPhaseTurn 16, .ack 65536 0, .ack 0 65536, .probeDue 48,
      .kioskPollDue 48, .nothing 65536, .routeQuery 65536 0, .routeQuery 0 256, .programmeQuery 65536 0 0,
      .programmeQuery 0 16777216 0, .programmeQuery 0 0 256, .accepted 65536, .busy 65536, .donePollDue 512 true,
      .refreshTimeout 512, .done 65536 0, .done 0 256, .refreshing 65536 0, .refreshing 0 256, .status 65536 0,
      .status 0 256, .computationSegmentRead 384 ].all (fun i => !i.wf) = true := by decide +kernel

/-! ### Commands from bytes, the bytes written out from R190 to R196. -/

/-- PUT NODE 40, deck 6 (R191, R193). -/
theorem test_decode_putNode :
    decodeSelect .afterWork [0x20#8, 0x03#8, 0x28#8, 0x00#8, 0x06#8, 0x0D#8] =
      some (.putNode (.fields
        { index := 40, rev := none, deck := 6 })) := by decide +kernel

/-- PUT SEGMENT 91, expected revision 3: 41 to 42, 9 m STAIR, BOTH, MUSTER ONLY, UP STAIRS, DOWN STAIRS. -/
theorem test_decode_putSegment :
    decodeSelect .afterWork [0x23#8, 0x0C#8, 0x00#8, 0x5B#8, 0x01#8, 0x03#8, 0x29#8, 0x2A#8, 0x09#8, 0x03#8, 0x00#8, 0x02#8, 0x08#8, 0x09#8, 0x7C#8] =
      some (.putSegment (.fields
        { index := 91, rev := some 3, endA := 41, endB := 42, length := 9, kind := 3, direction := 0,
          availability := 2, arrowA := 8, arrowB := 9 })) := by decide +kernel

/-- READ SLOT of cell (21, 40). -/
theorem test_decode_readSlot :
    decodeSelect .afterWork [0x10#8, 0x03#8, 0x09#8, 0x15#8, 0x28#8, 0x27#8] =
      some (.readSlot (.fields
        { kind := 9, index := 21 * 256 + 40 })) := by decide +kernel

/-- LOOK UP ROUTE of target 21 at node 40. -/
theorem test_decode_lookUpRoute :
    decodeSelect .afterWork [0x30#8, 0x02#8, 0x15#8, 0x28#8, 0x0F#8] =
      some (.lookUpRoute (.fields
        { target := 21, node := 40 })) := by decide +kernel

/-- SET CLOCK to day 3, minute 1,170, second 0. -/
theorem test_decode_setClock :
    decodeSelect .afterWork [0x38#8, 0x04#8, 0x03#8, 0x04#8, 0x92#8, 0x00#8, 0xA9#8] =
      some (.setClock (.fields
        { day := 3, minute := 1170, second := 0 })) := by decide +kernel

/-- CHANGE ENTRY 140 naming venue (absent) and start 5,490: mask bits 1 and 2. -/
theorem test_decode_changeEntry :
    decodeSelect .afterWork [0x41#8, 0x07#8, 0x8C#8, 0x00#8, 0x06#8, 0xFF#8, 0x00#8, 0x15#8, 0x72#8, 0x54#8] =
      some (.changeEntry (.fields
        { index := 140, rev := none, title := none, venue := some none, start := some 5490,
          duration := none, lead := none, audience := none, highlight := none })) := by decide +kernel

/-- PUT STATION 2 at node 7: capacity 300, near-full 90, no overflow station, lamp line 2, name phrase 30. -/
theorem test_decode_putStation :
    decodeSelect .afterWork [0x50#8, 0x09#8, 0x02#8, 0x00#8, 0x07#8, 0x01#8, 0x2C#8, 0x5A#8, 0xFF#8, 0x02#8, 0x1E#8, 0xC8#8] =
      some (.putStation (.fields
        { index := 2, rev := none, node := 7, capacity := 300, nearFull := 90, overflow := none,
          lamp := some 2, phrase := 30 })) := by decide +kernel

/-- FIND CABIN with a label of three characters in their one-, two- and three-byte forms. -/
theorem test_decode_findCabin :
    decodeSelect .afterWork [0x65#8, 0x07#8, 0x03#8, 0x41#8, 0x81#8, 0x05#8, 0x00#8, 0x90#8, 0x01#8, 0x35#8] =
      some (.findCabin (.fields [0x0041#16, 0x0105#16, 0x9001#16])) := by decide +kernel

/-- START DRILL. -/
theorem test_decode_startDrill :
    decodeSelect .afterWork [0x70#8, 0x00#8, 0x70#8] =
      some (.startDrill) := by decide +kernel

/-- PUT SCREEN 4: node 40, WALL, bank 1, target 21, OWN DECK, 2 lines, no station, no beacon. -/
theorem test_decode_putScreen :
    decodeSelect .afterWork [0x78#8, 0x0B#8, 0x04#8, 0x00#8, 0x28#8, 0x00#8, 0x01#8, 0x01#8, 0x15#8, 0x00#8, 0x02#8, 0xFF#8, 0x00#8, 0xB7#8] =
      some (.putScreen (.fields
        { index := 4, rev := none, node := 40, kind := 0, bank := 1, targets := [21], filter := 0, lines := 2,
          station := none, beacon := 0 })) := by decide +kernel

/-- READ TAG LINK 311. -/
theorem test_decode_readTagLink :
    decodeSelect .afterWork [0x81#8, 0x02#8, 0x01#8, 0x37#8, 0xB5#8] =
      some (.readTagLink (.fields 311)) := by decide +kernel

/-- SET NOTICE ENABLES of STATION and STORE: bits 1 and 4. -/
theorem test_decode_setNoticeEnables :
    decodeSelect .afterWork [0x92#8, 0x01#8, 0x12#8, 0x81#8] =
      some (.setNoticeEnables (.fields 18)) := by decide +kernel

/-- A mask of 0, an expected-revision flag of 2, and a payload that ends inside a field do not decode (R190). -/
theorem test_decode_malformed :
    decodeSelect .afterWork [0x41#8, 0x04#8, 0x8C#8, 0x00#8, 0x00#8, 0x00#8, 0xC9#8] = some (.changeEntry .malformed) ∧
    decodeSelect .afterWork [0x20#8, 0x03#8, 0x28#8, 0x02#8, 0x06#8, 0x0F#8] = some (.putNode .malformed) ∧
    decodeSelect .afterWork [0x65#8, 0x02#8, 0x02#8, 0x41#8, 0x24#8] = some (.findCabin .malformed) := by decide +kernel

/-- A CHANGE CABIN that does not decode keeps whether its mask names a field of the roster group: the berths, bit 2, cut off;
the service state, bit 5, cut off; and no mask at all (R143, R190). -/
theorem test_decode_changeCabin :
    decodeSelect .afterWork [0x61#8, 0x05#8, 0x01#8, 0x37#8, 0x00#8, 0x04#8, 0x04#8, 0x52#8] =
      some (.changeCabin (.fields
        { index := 311, rev := none, node := none, station := none, berths := some 4, assist := none, bank := none,
          service := none, occupant := none, greeting := none })) ∧
    decodeSelect .afterWork [0x61#8, 0x05#8, 0x01#8, 0x37#8, 0x00#8, 0x24#8, 0x04#8, 0x72#8] = some (.changeCabin (.malformed true)) ∧
    decodeSelect .afterWork [0x61#8, 0x05#8, 0x01#8, 0x37#8, 0x00#8, 0x60#8, 0x02#8, 0x30#8] = some (.changeCabin (.malformed false)) ∧
    decodeSelect .afterWork [0x61#8, 0x05#8, 0x01#8, 0x37#8, 0x01#8, 0x00#8, 0x00#8, 0x53#8] = some (.changeCabin (.malformed false)) := by decide +kernel

/-- READ SCREEN CONTENT with its first line left out, sent as 0xFF, and given as 2 (R190, R192). -/
theorem test_decode_readContent :
    decodeSelect .afterWork [0x7B#8, 0x01#8, 0x04#8, 0x7E#8] = some (.readScreenContent (.fields { index := 4, first := none })) ∧
    decodeSelect .afterWork [0x7B#8, 0x02#8, 0x04#8, 0xFF#8, 0x82#8] = some (.readScreenContent (.fields { index := 4, first := none })) ∧
    decodeSelect .afterWork [0x7B#8, 0x02#8, 0x04#8, 0x02#8, 0x7F#8] = some (.readScreenContent (.fields { index := 4, first := some 2 })) := by
  decide +kernel

/-- A fetch select, a request select during the work, a wrong check byte, and no byte at all (R179 to R182). -/
theorem test_decode_selects :
    decodeSelect .duringWork [0xF0#8] = some (.fetch .duringWork) ∧
    decodeSelect .duringWork [0x70#8, 0x00#8, 0x70#8] = some .discardedRequest ∧
    decodeSelect .afterWork [0x70#8, 0x00#8, 0x71#8] = some (.stoppedFrame [0x70#8, 0x00#8, 0x71#8]) ∧
    decodeSelect .afterWork [] = none := by decide +kernel

/-- Answers of the panels (R196): an ACK of version 300 from screen 4, a ROUTE QUERY, a PROGRAMME QUERY, and a DONE of cabin 311
with MAKE UP; an answer whose check is wrong, or whose type is the other channel's, is none. -/
theorem test_decode_answers :
    decodeAnswer .screen [0x7E#8, 0x00#8, 0x04#8, 0x81#8, 0x00#8, 0x02#8, 0x01#8, 0x2C#8, 0xD4#8] = some (.ack 4 300) ∧
    decodeAnswer .screen [0x7E#8, 0x00#8, 0x04#8, 0x83#8, 0x00#8, 0x01#8, 0x15#8, 0xED#8] = some (.routeQuery 4 21) ∧
    decodeAnswer .screen [0x7E#8, 0x00#8, 0x04#8, 0x84#8, 0x00#8, 0x04#8, 0x00#8, 0x15#8, 0x72#8, 0x01#8, 0x9C#8] = some (.programmeQuery 4 5490 1) ∧
    decodeAnswer .tag [0x7E#8, 0x01#8, 0x37#8, 0x93#8, 0x00#8, 0x01#8, 0x02#8, 0xD8#8] = some (.done 311 2) ∧
    decodeAnswer .screen [0x7E#8, 0x00#8, 0x04#8, 0x82#8, 0x00#8, 0x00#8, 0x00#8] = none ∧
    decodeAnswer .screen [0x7E#8, 0x00#8, 0x04#8, 0x93#8, 0x00#8, 0x01#8, 0x02#8, 0xEA#8] = none ∧
    decodeAnswer .tag [0x7E#8, 0x00#8, 0x04#8, 0x81#8, 0x00#8, 0x02#8, 0x01#8, 0x2C#8, 0xD4#8] = none := by decide +kernel

/-! ### States to test with, and to show that the hypotheses of the statements can be met. -/

/-- The state after a command. -/
def after (c : Instr) (s : State) : State :=
  match exec c s with
  | .next t => t
  | _ => s

/-- What a command answers. -/
def reply (c : Instr) (s : State) : Option (Status × List Byte) :=
  match (after c s).port.buffer with
  | .working r => some (r.status, r.payload)
  | _ => none

/-- A PRESENT slot of the directory. -/
def slot (k : Kind) (i rev : Nat) : Nat × DirEntry := ((Place.slot k i).name, { present := true, rev })

def busyStore : Store := {
  dir := [slot .node 0 1, slot .node 40 1, slot .node 191 255, slot .segment 383 1, slot .target 15 2, slot .target 16 1,
    slot .target 39 255, slot .station 15 2, slot .entrance 31 1, slot .entry 255 1, slot .cabin 511 255, slot .screen 47 1,
    slot .phrase 895 1]
  nodes := [(0, { deck := 5 }), (191, { deck := 23 })]
  segments := [(383, { endA := 0, endB := 191, length := 120, kind := .stair, arrowA := .upStairs, arrowB := .downStairs })]
  targets := [(15, { node := 191, phrase := 30, kind := .station }), (16, { node := 0, phrase := 40 }),
    (39, { node := 191, phrase := 127, kind := .service })]
  stations := [(15, { node := 191, capacity := 100, nearFull := 90, lamp := some 15, phrase := 30 })]
  entrances := [(31, { station := some 15, filter := 2 })]
  entries := [(255, { title := [0x41#16], venue := some 16, start := 143000, duration := 30 })]
  cabins := [(511, { label := [0x41#16], node := 191, station := 15, berths := 6, assist := true, bank := 3,
                     greeting := some { text := [0x42#16], expiry := some 143999 } })]
  screens := [(47, { kind := .kiosk, bank := 1, targets := [16] })]
  phrases := [(895, [0x43#16])] }

def busyRow : ScheduleRow :=
  { state := .scheduled, since := none, start := 143000, finish := 143030, lead := 0, cancelled := none, capturePending := false }

/-- A part in NORMAL with the clock UNSET: a segment between two nodes, a station with an entrance and a lamp line, two host
targets, an entry, a cabin, a kiosk and a phrase, at the highest index of each kind. -/
def busy : State := {
  store := busyStore
  graph := {
    refSegments := [(383, some { endA := 0, endB := 191, length := 120, kind := .stair, direction := .both, arrowA := .upStairs,
                                 arrowB := .downStairs })]
    refTargets := [(15, some { node := 191, kind := .station }), (16, some { node := 0, kind := .venue }),
      (39, some { node := 191, kind := .service })]
    refStations := [(15, some 191)]
    refScreens := [(47, some { node := 0, targets := [16] })]
    refCabins := [(511, some 191)]
    refEntries := [(255, some { venue := some 16 })] }
  routes := { cols := [(15, .valid), (16, .valid), (39, .valid)] }
  prog := { schedule := [(255, some busyRow)] }
  muster := {
    stationSettings := [(15, some { capacity := 100, nearFull := 90, overflow := none, lamp := some 15 })]
    effective := [(15, some { station := 15, askCrew := false })]
    entranceSettings := [(31, some { station := some 15, filter := 2 })]
    roster := [(511, some { station := 15, berths := 6, assist := true })]
    lamps := [(15, { owner := some 15 })] }
  cabinTable := { summaries := [(511, some { service := .none, bank := 3, expiry := some 143999 })] }
  scr := { links := [(47, { presence := .kiosk })] } }

/-- The same part in DRILL, or in MUSTER, with its session and its tag sweep. -/
def inDrill (s : State) : State :=
  { s with mode := { s.mode with mode := .drill }, muster := { s.muster with session := some .drill }
           tag := { s.tag with suspended := true, sweep := some {} } }

def inMuster (s : State) : State :=
  { s with mode := { s.mode with mode := .muster }, muster := { s.muster with session := some .muster }
           tag := { s.tag with suspended := true, sweep := some {} } }

def atTime (c : Clock) (s : State) : State := { s with time := { s.time with clock := c } }
def due16 (s : State) : State := { s with time := { s.time with due16 := true } }
def due1 (s : State) : State := { s with time := { s.time with due1 := true } }
def withEngine (c : Computation) (s : State) : State := { s with routes := { s.routes with engine := some c } }
def withErrors (t : Table WordError) (s : State) : State := { s with store := { s.store with ramErrors := t } }
def withDamage (p : Place) (s : State) : State := { s with store := s.store.setDamaged p true }
def withLock (s : State) : State := { s with graph := { s.graph with lock := true } }
def withSweep (sw : Sweep) (s : State) : State := { s with store := { s.store with sweep := some sw } }

theorem agrees_of {st : Store} {k : Kind} {i r : Nat} (h : st.rev k i = r) : st.agrees k i (some r) := fun _ e => by
  cases e
  exact h.symm

theorem get_all {α : Type} {P : α → Prop} {d : α} {t : Table α} (hd : P d) (ht : ∀ p ∈ t, P p.2) (k : Nat) :
    P (Table.get d t k) := by
  induction t with
  | nil => exact hd
  | cons p rest ih =>
    simp only [Table.get]
    split
    · exact ht p (by simp)
    · exact ih fun q hq => ht q (by simp [hq])

theorem get_listed {α : Type} {d : α} {t : Table α} {k : Nat} (h : Table.get d t k ≠ d) : ∃ p ∈ t, p.1 = k := by
  induction t with
  | nil => exact absurd rfl h
  | cons p rest ih =>
    simp only [Table.get] at h
    split at h
    · rename_i e
      exact ⟨p, by simp, e.symm⟩
    · obtain ⟨q, hq, e⟩ := ih h
      exact ⟨q, by simp [hq], e⟩

theorem busy_inRange : busy.InRange where
  divider := by decide
  due16 h := by cases h
  due1 h := by cases h
  revision k i := get_all (P := fun e : DirEntry => e.rev ≤ 255) (by decide) (by decide) _
  corrected := by decide
  linger := by decide
  head n := by simp [Muster.live, busy]
  unmatched n := by simp [Muster.live, busy]
  ambiguous n := by simp [Muster.live, busy]
  changes := by decide
  screenVersion n := by simp [Composer.screen, busy]
  tagVersion n := by simp [Composer.tag, busy]
  handles h hr := by
    obtain ⟨p, hp, e⟩ := get_listed hr
    have : ∀ p ∈ busy.prog.schedule, p.1 < 256 := by decide
    exact e ▸ this p hp
  cabins n hs := by
    obtain ⟨p, hp, e⟩ := get_listed hs
    have : ∀ p ∈ busy.cabinTable.summaries, p.1 < 512 := by decide
    exact e ▸ this p hp

/-- The ranges do not speak of the clock or the mode. -/
theorem busy_inRange_at (c : Clock) : (atTime c busy).InRange :=
  ⟨busy_inRange.divider, (fun h => by cases h), (fun h => by cases h), busy_inRange.revision, busy_inRange.corrected,
    busy_inRange.linger, busy_inRange.head, busy_inRange.unmatched, busy_inRange.ambiguous, busy_inRange.changes,
    busy_inRange.screenVersion, busy_inRange.tagVersion, busy_inRange.handles, busy_inRange.cabins⟩

theorem busy_columns : busy.Columns where
  form := by decide
  present := by decide +kernel
  indexed := by decide +kernel
  inRange t ht := by
    apply Classical.byContradiction
    intro h
    obtain ⟨p, hp, e⟩ := get_listed h
    have : ∀ p ∈ busy.routes.cols, p.1 < 40 := by decide
    have := this p hp
    simp only [Config.targets] at ht
    omega
  stale t := by
    have h : busy.routes.col t ≠ .stale := get_all (P := fun c => c ≠ ColState.stale) (by decide) (by decide) t
    have q : busy.routes.isQueued t = false := rfl
    have f : busy.routes.inFlight t = false := rfl
    simp [h, q, f]
  once := by decide
  apart t h := by rfl
  idle _ := by rfl

/-! ### Witnesses: each states hypotheses of the statement it is named for, at a state and operands that meet them. -/

/-- The same part with column 39 in flight, columns 15 and 16 waiting, a cell of column 39 that holds a distance, and the tag of
cabin 511 composed. -/
def working : State := { busy with
  store := { busyStore with cells := [(39 * 256, { dist := some 480, next := some 383 }), (39 * 256 + 191, { dist := some 0 })] }
  routes := { cols := [(15, .stale), (16, .stale), (39, .stale)], queue := [⟨16, 3⟩, ⟨15, 4⟩], joinCount := 4
              engine := some { column := 39 } }
  composer := { tags := [(511, { content := [[.text [0x41#16]]], version := 1 })] } }

theorem working_inRange : working.InRange where
  divider := by decide
  due16 h := by cases h
  due1 h := by cases h
  revision := busy_inRange.revision
  corrected := by decide
  linger := by decide
  head := busy_inRange.head
  unmatched := busy_inRange.unmatched
  ambiguous := busy_inRange.ambiguous
  changes := by decide
  screenVersion n := by simp [Composer.screen, working]
  tagVersion n := get_all (P := fun c : PanelContent => c.version ≤ 65535) (by decide) (by decide) n
  handles := busy_inRange.handles
  cabins := busy_inRange.cabins

theorem working_columns : working.Columns where
  form := by decide
  present := by decide +kernel
  indexed := by decide +kernel
  inRange t ht := by
    apply Classical.byContradiction
    intro h
    obtain ⟨p, hp, e⟩ := get_listed h
    have : ∀ p ∈ working.routes.cols, p.1 < 40 := by decide
    have := this p hp
    simp only [Config.targets] at ht
    omega
  stale t := by
    by_cases ht : t < 40
    · have : ∀ t < 40, working.routes.col t = .stale ↔
          working.routes.isQueued t = true ∨ working.routes.inFlight t = true := by decide +kernel
      exact this t ht
    · have h : working.routes.col t ≠ .stale := fun h => by
        obtain ⟨p, hp, e⟩ := get_listed (d := ColState.empty) (t := working.routes.cols) (k := t) (by
          intro h'
          exact absurd (h.symm.trans h') (by decide))
        have : ∀ p ∈ working.routes.cols, p.1 < 40 := by decide
        exact ht (e ▸ this p hp)
      refine iff_of_false h ?_
      simp only [Routes.isQueued, Routes.inFlight, working, List.any, Option.any, Bool.or_false, Bool.or_eq_true,
        decide_eq_true_eq]
      omega
  once := by decide
  apart t h := by
    simp only [Routes.inFlight, working, Option.any, decide_eq_true_eq] at h
    subst h
    decide
  idle h := by cases h

theorem working_routed : working.Routed where
  indexed := by decide +kernel
  segments := by decide +kernel
  targets t ht x hx := by
    have : ∀ t < 40, ((working.graph.targetNode t).all fun x => x < 192) = true := by decide +kernel
    have := this t ht
    rw [hx] at this
    simpa using this
  empty t ht h x hx := by
    apply Classical.byContradiction
    intro hc
    obtain ⟨p, hp, e⟩ := get_listed hc
    have : ∀ p ∈ working.store.cells, p.1 / 256 = 39 := by decide
    have q := this p hp
    have : t = 39 := by
      simp only [Place.index, Config.nodes] at e hx
      omega
    subst this
    revert h
    decide
  chains t ht x hx h := by
    obtain ⟨p, hp, e⟩ := get_listed (d := ({} : Cell)) (t := working.store.cells) (k := (Place.cell t x).index) (fun h' => by
      unfold Store.cell at h
      rw [h'] at h
      exact h rfl)
    have goal : working.Chain 39 191 := .goal (by decide)
    simp only [working, List.mem_cons, List.not_mem_nil, or_false] at hp
    simp only [Place.index, Config.nodes] at e hx
    rcases hp with rfl | rfl
    · obtain ⟨rfl, rfl⟩ : t = 39 ∧ x = 0 := by omega
      exact .hop (k := 383) (y := 191) (by decide) (by decide) (by decide +kernel) goal
    · obtain ⟨rfl, rfl⟩ : t = 39 ∧ x = 191 := by omega
      exact goal

theorem working_joined : working.Joined where
  screens n _ _ _ h := absurd (get_all (P := fun l : ScreenLink => l.acked = some 0) (by decide) (by decide) n) h
  tags n _ _ h := by
    have : (working.tag.link n).dirty = false := rfl
    rw [this] at h
    cases h
  blank := by decide +kernel

theorem working_orderly : working.Orderly :=
  ⟨by decide, by decide, by decide, by decide, (fun _ h => by cases h), by decide, (fun _ _ h => by cases h)⟩

/-- In `working` the chain of node 0's cell in column 39 is whole, as far as a premise asks of its one hop. -/
theorem working_whole {kept : Nat → Nat → Nat → Prop} (h : kept 383 0 191) : working.WholeChain kept 39 0 :=
  .hop (y := 191) (by decide) (by decide) (Store.readable_of_clean rfl _) (by decide) rfl (by decide) h
    (.goal (by decide) (by decide) (Store.readable_of_clean rfl _) (by decide))

/-- Whole chains for each premise on their hops: none, segments that are not taken out, and hops that may still be walked after a
put, a new state or a mode change, and at a RESTART. -/
theorem witness_WholeChains :
    working.WholeChain (fun _ _ _ => True) 39 0 ∧ working.WholeChain (fun j _ _ => j ≠ 382) 39 0 ∧
    working.WholeChain (fun k x y => k = 383 → working.store.traversable .normal k x y = true) 39 0 ∧
    working.WholeChain (fun k x y => working.store.traversable .drill k x y = true) 39 0 ∧
    (inDrill working).store.traversable .normal 383 0 191 = true ∧ working.Joined :=
  ⟨working_whole trivial, working_whole (by decide), working_whole fun _ => by decide +kernel, working_whole (by decide +kernel),
    by decide +kernel, working_joined⟩

/-- For the invariants: a state that meets them all, whose step goes on; the queue's order in NORMAL and in a session; and an
alarm that is not ASSERTED outside MUSTER, and that is ASSERTED in it. -/
theorem witness_EveryStep :
    let s := { working with pending := [Instr.readStatus, .tick1Hz] }
    s.wf = true ∧ s.InRange ∧ s.InSession ∧ s.Columns ∧ s.QueueInOrder ∧ s.Routed ∧ s.Orderly ∧ s.Joined ∧
      (s.mode.filter.state = .asserted → s.mode.mode = .muster) ∧ ∃ t, step s = .next t :=
  ⟨by decide +kernel,
    ⟨working_inRange.divider, (fun h => by cases h), (fun h => by cases h), working_inRange.revision,
      working_inRange.corrected, working_inRange.linger, working_inRange.head, working_inRange.unmatched,
      working_inRange.ambiguous, working_inRange.changes, working_inRange.screenVersion, working_inRange.tagVersion,
      working_inRange.handles, working_inRange.cabins⟩,
    ⟨by decide, by decide, by decide⟩,
    ⟨working_columns.form, working_columns.present, working_columns.indexed, working_columns.inRange, working_columns.stale,
      working_columns.once, working_columns.apart, working_columns.idle⟩,
    ⟨by decide, by decide, by decide, (fun _ => by decide), (fun h => absurd rfl h)⟩,
    ⟨working_routed.indexed, working_routed.segments, working_routed.targets, working_routed.empty, fun t ht x hx h => by
      have := working_routed.chains t ht x hx h
      clear hx h
      induction this with
      | goal here => exact .goal here
      | hop next inRange walk _ ih => exact .hop next inRange walk ih⟩,
    ⟨working_orderly.service, working_orderly.sends, working_orderly.silent, working_orderly.routine,
      working_orderly.sweepList, working_orderly.refreshing, working_orderly.sending⟩,
    ⟨working_joined.screens, working_joined.tags, working_joined.blank⟩, (fun h => by cases h), ⟨_, rfl⟩⟩

theorem witness_TheQueueInASession :
    (inDrill { working with routes := { working.routes with queue := [⟨15, 4⟩, ⟨16, 3⟩] } }).QueueInOrder :=
  ⟨by decide, by decide, by decide, (fun h => by cases h), (fun _ => by decide)⟩

/-- A node, a segment, targets, columns, stations and a bank that concern the kiosk and the tag of the busy part (R157). -/
theorem witness_PanelsConcerned :
    (∀ x ∈ [Told.screen 47, .targetName 16, .targetNode 16, .column 16, .segment [0, 191], .node 0, .clock, .bank 1,
      .everyPanel], busy.ScreenOf 47 x) ∧
    (let s : State := { busy with store := { busy.store with
       screens := [(47, { kind := .kiosk, bank := 1, station := some 15, lines := 1 })] } }
     ∀ x ∈ [Told.entry, .station 15, .effective 15, .column 15], s.ScreenOf 47 x) ∧
    (∀ x ∈ [Told.targetNode 15, .node 191, .station 15, .bank 3, .cabin 511, .everyPanel], busy.TagOf 511 x) ∧
    busy.store.isDamaged (.slot .screen 47) = false := by
  have hr : busy.muster.rosterEntry 511 = some { station := 15, berths := 6, assist := true } := by decide +kernel
  have hg : busy.graph.screen 47 = some { node := 0, targets := [16] } := by decide +kernel
  refine ⟨fun x hx => ?_, fun x hx => ?_, fun x hx => ?_, by decide +kernel⟩
  all_goals simp only [List.mem_cons, List.not_mem_nil, or_false] at hx
  · rcases hx with rfl | rfl | rfl | rfl | rfl | rfl | rfl | rfl | rfl
    · rfl
    · exact .inl ⟨_, hg, by decide⟩
    · exact .inl ⟨_, hg, by decide⟩
    · exact .inl ⟨_, hg, by decide⟩
    · exact ⟨_, hg, by decide⟩
    · exact .inl ⟨_, hg, by decide⟩
    · trivial
    · exact ⟨by decide +kernel, by decide⟩
    · trivial
  · rcases hx with rfl | rfl | rfl | rfl
    · exact ⟨by decide +kernel, by decide, by decide⟩
    · exact ⟨by decide +kernel, by decide⟩
    · exact ⟨by decide +kernel, by decide⟩
    · exact .inr ⟨by decide +kernel, 15, { station := 15, askCrew := false }, by decide, by decide, rfl⟩
  · rcases hx with rfl | rfl | rfl | rfl | rfl | rfl
    · exact ⟨by decide, _, hr, rfl⟩
    · exact ⟨_, hr, by decide, by decide⟩
    · exact ⟨_, hr, rfl⟩
    · exact ⟨{ service := .none, bank := 3, expiry := some 143999 }, by decide +kernel, rfl⟩
    · rfl
    · trivial

theorem witness_OnlyModeCommandsChangeTheMode :
    (∃ t, exec .pinReset (inDrill busy) = .next t ∧ t.mode.mode ≠ (inDrill busy).mode.mode) ∧
    (inMuster busy).mode.mode = .muster ∧ ∃ t, exec .pinReset (inMuster busy) = .next t ∧
      t.mode.mode ≠ (inMuster busy).mode.mode := ⟨⟨_, rfl, by decide⟩, rfl, ⟨_, rfl, by decide⟩⟩

theorem witness_TheLockedTopologyStaysFixed :
    ∃ t, exec (.setSegmentState (.fields { index := 383, rev := none, availability := 1 })) (withLock busy) = .next t ∧
      (withLock busy).graph.lock = true := ⟨_, rfl, rfl⟩

/-- A refusal with RANGE, one with ABSENT. -/
theorem witness_RefusedRequestsChangeNothing :
    (∃ t r, exec (.getNode (.fields 192)) busy = .next t ∧ t.port.buffer = .working r ∧ t.port.buffer ≠ busy.port.buffer ∧
      r.status = .range) ∧
    (∃ t r, exec (.getNode (.fields 1)) busy = .next t ∧ t.port.buffer = .working r ∧ t.port.buffer ≠ busy.port.buffer ∧
      r.status = .absent) :=
  ⟨⟨_, _, rfl, rfl, by decide +kernel, by decide +kernel⟩, ⟨_, _, rfl, rfl, by decide +kernel, by decide +kernel⟩⟩

/-- R12's checks on a slot: the first index beyond each kind, another revision, an ABSENT slot and a DAMAGED one; and a partial
change and a read whose own reads find damage. -/
theorem witness_TheChecksOfASlot :
    busy.mode.mode = .normal ∧ busy.mode.mode ≠ .muster ∧
    (∀ p ∈ [(Kind.node, 192), (.segment, 384), (.target, 40), (.station, 16), (.entrance, 32), (.cabin, 512),
      (.screen, 48), (.entry, 256), (.phrase, 895 + 1)], kindHas p.1 p.2 = false) ∧
    (∀ p ∈ [(Kind.node, 191), (.segment, 383), (.target, 39), (.target, 16), (.station, 15), (.entrance, 31), (.cabin, 511),
      (.screen, 47), (.entry, 255), (.phrase, 895)], kindHas p.1 p.2 = true ∧ busy.store.present p.1 p.2 = true) ∧
    ¬busy.store.agrees .node 191 (some 0) ∧ busy.store.agrees .node 191 (some 255) ∧ busy.store.agrees .node 190 none ∧
    busy.store.present .node 190 = false ∧
    (∀ k ∈ [Kind.segment, .entry, .cabin], ∃ i, busy.store.present k i = true ∧
      (withDamage (.slot k i) busy).store.isDamaged (.slot k i) = true) ∧
    (∀ w ∈ [192 + 383 * 2 + 1, 4136 + 511 * 28, 1064 + 255 * 12 + 11],
      ¬(withErrors [(w, .double)] busy).store.readable [w]) ∧
    (∃ row, busy.prog.row 255 = some row ∧ row.state ≠ .ended ∧ row.state ≠ .cancelled) :=
  ⟨rfl, by decide, by decide, by decide +kernel, (fun h => absurd (h 0 rfl) (by decide)), agrees_of (by decide),
    (fun _ h => by cases h), by decide,
    (fun k hk => by
      simp only [List.mem_cons, List.not_mem_nil, or_false] at hk
      rcases hk with rfl | rfl | rfl
      · exact ⟨383, by decide +kernel⟩
      · exact ⟨255, by decide +kernel⟩
      · exact ⟨511, by decide +kernel⟩),
    (fun w hw h => by
      have e : Table.get .clean (withErrors [(w, .double)] busy).store.ramErrors w = .double := by
        simp [withErrors, Table.get]
      exact h w (by simp) e),
    ⟨_, rfl, by decide, by decide⟩⟩

/-- Where a word is the only one in error, a word in double-bit error is that word. -/
theorem double_only {w v : Nat} {x : WordError} {s : State}
    (h : Table.get .clean (withErrors [(w, x)] s).store.ramErrors v = .double) : v = w := by
  obtain ⟨p, hp, e⟩ := get_listed (t := (withErrors [(w, x)] s).store.ramErrors) (k := v) (d := .clean) (by
    rw [h]
    decide)
  simp only [withErrors, List.mem_cons, List.not_mem_nil, or_false] at hp
  rw [← e, hp]

/-- Partial changes whose own reads find damage, of an entry and of a cabin: the first word of the title, the word of the other
entry fields, the first word of the cabin's head, of its occupant and of its greeting; each the only word in error. -/
theorem witness_ChangesFindDamage :
    let now := atTime (.running { day := 99, minute := 0, second := 0 }) busy
    let e : ChangeEntry :=
      { goodChangeEntry with index := 255, rev := some 1, title := some [0x42#16], venue := some none, start := some 143999 }
    let c : ChangeCabin := { goodChangeCabin with
      index := 511, node := some 191, occupant := some [0x42#16], greeting := some { text := [0x41#16], expiry := some 143999 } }
    (now.mode.mode ≠ .muster ∧ now.mode.mode = .normal ∧ now.store.agrees .entry 255 (some 1) ∧
      now.store.present .entry 255 = true ∧ now.store.isDamaged (.slot .entry 255) = false ∧ e.valid = true ∧
      now.prog.row 255 = some busyRow ∧ busyRow.state ≠ .ended ∧ busyRow.state ≠ .cancelled ∧ e.timing = true ∧
      ∀ n, now.now = some n → n < 143999 + 30 + now.prog.linger) ∧
    (now.store.agrees .cabin 511 none ∧ now.store.present .cabin 511 = true ∧
      now.store.isDamaged (.slot .cabin 511) = false ∧ c.valid = true ∧ c.rosterGroup = true ∧
      (∀ n, now.now = some n → n < 143999) ∧ now.store.present .node 191 = true) ∧
    (∀ w ∈ [1064 + 255 * 12, 1064 + 255 * 12 + 11],
      (withErrors [(w, .double)] now).wf = true ∧ w ∈ changeEntryWords e ∧ w ∈ (Place.slot .entry 255).words) ∧
    (∀ w ∈ [4136 + 511 * 28, 4136 + 511 * 28 + 2, 4136 + 511 * 28 + 10],
      (withErrors [(w, .double)] now).wf = true ∧ w ∈ (Place.slot .cabin 511).words) ∧
    c.namesHead = true ∧
    ∀ (w v : Nat), (Table.get .clean (withErrors [(w, .double)] now).store.ramErrors v = .double → v = w) ∧
      Table.get .clean (withErrors [(w, .double)] now).store.ramErrors w = .double := by
  refine ⟨⟨by decide, rfl, agrees_of (by decide), by decide, by decide, by decide, by decide, by decide, by decide, by decide,
    fun n h => ?_⟩, ⟨(fun _ h => by cases h), by decide, by decide, by decide, by decide, fun n h => ?_, by decide⟩,
    by decide +kernel, by decide +kernel, by decide, fun w v => ⟨double_only, by simp [withErrors, Table.get]⟩⟩ <;>
  · cases h
    decide

/-- An entry that is over, for FINAL. -/
theorem witness_CancelEntryIsFinal :
    ∀ x ∈ [EntryState.ended, .cancelled],
      let s : State := { busy with prog := { schedule := [(255, some { busyRow with state := x })] } }
      s.mode.mode ≠ .muster ∧ s.store.agrees .entry 255 none ∧ s.store.present .entry 255 = true ∧
        s.store.isDamaged (.slot .entry 255) = false ∧ ∃ row, s.prog.row 255 = some row ∧ (row.state = .ended ∨ row.state = .cancelled) := by
  intro x hx
  refine ⟨(fun h => by cases h), (fun _ h => by cases h), rfl, rfl, _, rfl, ?_⟩
  simp only [List.mem_cons, List.not_mem_nil, or_false] at hx
  exact hx

/-- Under the lock: slots that are PRESENT, and records that would change what R38 fixes. -/
theorem witness_TheLockRefuses :
    let s := withLock busy
    let seg : PutSegment := { goodPutSegment with index := 383 }
    let target : PutTarget := { goodPutTarget with index := 39 }
    let station : PutStation := { goodPutStation with index := 15 }
    let entrance : PutEntrance := { goodPutEntrance with index := 31 }
    s.mode.mode = .normal ∧ s.graph.lock = true ∧
    (∃ r, seg.record = some r ∧ s.graph.segment 383 ≠ some r.ref) ∧ target.record ≠ none ∧
    (station.record ≠ none ∧ s.graph.stationNode 15 ≠ some station.node) ∧ entrance.record ≠ none ∧
    (∀ p ∈ [(Kind.node, 191), (.segment, 383), (.target, 39), (.station, 15), (.entrance, 31)], s.store.present p.1 p.2 = true ∧
      s.store.agrees p.1 p.2 none) :=
  ⟨rfl, rfl, ⟨_, rfl, by decide⟩, by decide, ⟨by decide, by decide⟩, by decide, fun p hp => by
    refine ⟨?_, fun _ h => by cases h⟩
    have : ∀ p ∈ [(Kind.node, 191), (.segment, 383), (.target, 39), (.station, 15), (.entrance, 31)],
      (withLock busy).store.present p.1 p.2 = true := by decide +kernel
    exact this p hp⟩

/-- A part whose 256 entry slots are all PRESENT. -/
def fullProgramme : State := { busy with store := { busy.store with dir := (List.range 256).map fun h => slot .entry h 1 } }

/-- References that stand or are missing, and a programme that is full. -/
theorem witness_TheReferencesRefuse :
    busy.mode.mode = .normal ∧ busy.graph.lock = false ∧
    (busy.store.present .node 191 = true ∧ 0 < (busy.graph.nodeRefs 191).total) ∧
    (busy.store.present .target 16 = true ∧ 0 < busy.graph.screenListings 16 ∧ 0 < busy.graph.venueUses 16) ∧
    (let s : State := { busy with graph := { busy.graph with refScreens := [(47, some { node := 0, targets := [15] })] } }
     s.store.present .station 15 = true ∧ s.graph.lock = false ∧ 0 < s.graph.screenListings 15) ∧
    busy.store.present .node 1 = false ∧
    (∃ r, ({ goodPutSegment with index := 383, endA := 0, endB := 1 } : PutSegment).record = some r) ∧
    (∃ r, ({ goodPutTarget with index := 16, node := 0, kind := 1 } : PutTarget).record = some r) ∧
    (∃ r, ({ goodPutStation with index := 14, node := 0, lamp := some 15 } : PutStation).record = some r) ∧
    (∃ x, busy.muster.settings 15 = some x ∧ x.lamp = some 15) ∧
    (∃ r, ({ goodPutCabin with index := 511, node := 1 } : PutCabin).record = some r) ∧ busy.now = none ∧
    (∃ r, ({ goodPutScreen with index := 47, targets := [17] } : PutScreen).record = some r) ∧
    busy.store.present .target 17 = false ∧
    (goodAddEntry.rev = none ∧ ∀ v ∈ [16, 17, 39], ∃ r, ({ goodAddEntry with venue := some v } : AddEntry).record = some r) ∧
    (busy.graph.target 39).map TargetRef.kind ≠ some .venue ∧
    (fullProgramme.mode.mode ≠ .muster ∧ ∀ h < 256, fullProgramme.store.present .entry h = true) :=
  ⟨rfl, rfl, ⟨by decide, by decide +kernel⟩, ⟨by decide, by decide +kernel, by decide +kernel⟩,
    ⟨by decide, rfl, by decide +kernel⟩, by decide, ⟨_, rfl⟩, ⟨_, rfl⟩, ⟨_, rfl⟩, ⟨_, rfl, rfl⟩, ⟨_, rfl⟩, rfl, ⟨_, rfl⟩, by decide,
    ⟨rfl, fun v hv => by
      simp only [List.mem_cons, List.not_mem_nil, or_false] at hv
      rcases hv with rfl | rfl | rfl
      · exact ⟨_, rfl⟩
      · exact ⟨_, rfl⟩
      · exact ⟨_, rfl⟩⟩,
    by decide, by decide, by decide +kernel⟩

theorem witness_RequestsOutsideTheirModeAreRefused :
    (inDrill busy).mode.mode ≠ .normal ∧ (inMuster busy).mode.mode = .muster ∧ busy.mode.mode = .normal ∧
      ChangeCabin.rosterGroup { goodChangeCabin with station := some 15 } = true := by decide

theorem witness_RestartKeepsTheRecords :
    (inDrill busy).wf = true ∧ (inDrill busy).mode.mode ≠ .muster ∧ (inDrill busy).mode.mode = .drill ∧
      busy.wf = true ∧ busy.mode.mode = .normal ∧ (15 < Config.stations ∧ busy.muster.hasStation 15 = true ∧
      (busy.muster.live 15).state ≠ .notSafe) ∧ (39 < Config.targets ∧ busy.routes.col 39 ≠ .empty) ∧
      busy.store.ramErrors = [] ∧ busy.store.present .cabin 511 = true ∧ (busy.scr.link 47).presence = .kiosk ∧
      (busy.scr.link 47).paused = false ∧
      (let s : State := { inDrill busy with muster := { (inDrill busy).muster with stations := [(15, { state := .taking })] } }
       s.wf = true ∧ s.mode.mode = .drill ∧ s.store.ramErrors = [] ∧ s.muster.hasStation 15 = true ∧
         (s.muster.live 15).state = .taking ∧ (s.muster.lamp 15).owner = some 15) := by decide +kernel

/-- One state with each buffer. -/
theorem witness_ResponsesBecomeReadyAndAreFetched :
    let r : Response := { status := .ok, code := 0x22#8, payload := [] }
    let holding (b : ResponseBuffer) : State := { busy with port := { busy.port with buffer := b } }
    (holding (.working r)).pending = [] ∧ (holding (.working r)).port.buffer = .working r ∧
      (holding (.ready r)).port.buffer = .ready r ∧ (∀ q, busy.port.buffer ≠ .working q) ∧ busy.port.buffer = .empty ∧
      [Status.ok, .adjusted, .check, .length, .unknown, .notReady, .range, .absent, .full, .reference, .revision, .mode,
        .locked, .damaged, .final, .busy][15]? = some .busy :=
  ⟨rfl, rfl, rfl, (fun _ h => by cases h), rfl, rfl⟩

theorem witness_StoppedAndDiscardedFrames :
    (0x22#8 ≠ 0xF0#8 ∧ [0x22#8, 0x00#8].length < 3 ∧ 200 < (0xC9#8).toNat) ∧
    (let bytes := [0x22#8, 0x01#8, 0x05#8, 0x27#8]
     bytes.length = (0x01#8).toNat + 3 ∧ (0x01#8).toNat ≤ 200 ∧ bytes.getLast? ≠ some (xorAll bytes.dropLast)) ∧
    (let bytes := [0x15#8, 0x00#8, 0x15#8]
     bytes.getLast? = some (xorAll bytes.dropLast) ∧ ∀ r ∈ requestRows, r.code ≠ (0x15#8).toNat) ∧
    (let bytes := [0x22#8, 0x02#8, 0x05#8, 0x05#8, 0x20#8]
     bytes.getLast? = some (xorAll bytes.dropLast) ∧
      ∃ r, (requestRows.find? fun r => r.code = (0x22#8).toNat) = some r ∧ r.longest < (0x02#8).toNat) :=
  ⟨by decide, by decide, by decide +kernel, by decide, ⟨_, rfl, by decide⟩⟩

/-- The longest text; and a character that its one-byte, its two-byte and its three-byte form all spell. -/
theorem witness_TextsReadBackAsWritten :
    (List.replicate 255 0xFFFF#16).length < 256 ∧
    ∀ bytes ∈ [[0x41#8], [0x80#8, 0x41#8], [0#8, 0#8, 0x41#8]], Reader.char bytes = some (0x41#16, []) :=
  ⟨by rw [List.length_replicate]; omega, by decide⟩

theorem witness_AttnFollowsEnabledPendingSources : Notice.entrance ≠ .service := by decide

theorem witness_ReadingWordsChecksThem :
    (withDamage (.slot .segment 383) busy).store.isDamaged (.slot .segment 383) = true ∧
    (busy.store.isDamaged (.slot .segment 383) = false ∧
      (withErrors [(958, .single)] busy).store.readable [958, 959]) ∧
    Table.get .clean (withErrors [(959, .double)] busy).store.ramErrors 959 = .double ∧
    ((withErrors [(959, .double)] busy).store.read (.slot .segment 383) [958, 959]).2 = .finding :=
  ⟨by decide, ⟨by decide, by unfold Store.readable; decide⟩, by decide, by decide⟩

theorem witness_WritingSlotsRaisesRevisions :
    busy.store.wf = true ∧ 65535 < 65536 ∧ busy.store.rev .node 191 = 255 ∧
      ¬(Kind.phrase = Kind.node ∧ 895 = 191) ∧ 39 < 40 ∧ (∀ x ∈ [0, 191], x < 192) ∧ ¬(38 = 39 ∧ 0 ∈ [0, 191]) := by
  decide +kernel

/-- A correction pending, one whose word has been rewritten, and none. -/
theorem witness_CorrectionsAreWrittenBack :
    busy.wf = true ∧ (∀ b ∈ busy.store.writeBacks, b.word ≠ 32071) ∧
    (let s := { withErrors [(32071, .single)] busy with store := { busy.store with
       ramErrors := [(32071, .single)], writeBacks := [{ word := 32071, rewritten := false }, { word := 0, rewritten := true }] } }
     s.wf = true ∧ (s.store.writeBacks.find? fun b => b.word = 32071) = some { word := 32071, rewritten := false } ∧
       (s.store.writeBacks.find? fun b => b.word = 0) = some { word := 0, rewritten := true }) := by decide +kernel

theorem witness_DamageReadsAnswer :
    (kindHas .node 191 = true ∧ kindHas .node 192 = false ∧ kindHas .phrase 895 = true ∧ kindHas .phrase 896 = false) ∧
    (39 < Config.targets ∧ 191 < Config.nodes ∧ Config.targets ≤ 10240 / 256 ∧ Config.nodes ≤ 192 % 256) ∧
    (busy.wf = true ∧ placeOf 0 191 = some (.slot .node 191) ∧ (Place.slot .node 191).valid = true ∧
      placeOf 9 10175 = some (.cell 39 191) ∧ (Place.cell 39 191).valid = true ∧
      placeOf 9 10176 = some (.cell 39 192) ∧ (Place.cell 39 192).valid = false) := by decide +kernel

theorem witness_StoreUpkeepRequests :
    busy.store.sweep = none ∧ (withSweep {} busy).store.sweep = some {} := by decide

/-- The first place, the last, a place whose flag is set, and a word that cannot be read. -/
theorem witness_SweepReadsAndEnds :
    let at' (p : Place) (s : State) := withSweep { position := p } s
    let last := Place.cell 39 191
    (at' (.slot .node 0) busy).store.sweepNext 9608 (.slot .node 0) = some (.slot .node 0) ∧
    (Place.slot .node 0).next = some (.slot .node 1) ∧ (at' last busy).store.sweepNext 9608 last = some last ∧
    last.next = none ∧ kindHas .node 0 = true ∧ busy.store.sweepReads (.slot .node 1) = false ∧
    (at' last (withDamage last busy)).store.sweepNext 9608 last = none ∧ busy.store.ramErrors = [] ∧
    ¬(withErrors [(0, .double)] busy).store.readable (Place.slot .node 0).words ∧
    (let s := at' last (withErrors [(24392 + 39 * 192 + 191, .double)] busy)
     s.wf = true ∧ s.routes.col 39 ≠ .empty ∧ s.store.sweepNext 9608 last = some last ∧ ¬s.store.readable last.words ∧
       ∀ w, Table.get .clean s.store.ramErrors w = .double → w ∈ last.words) := by
  refine ⟨by decide, by decide, by decide, by decide, by decide, by decide, by decide, by decide, ?_, by decide +kernel,
    by decide, by decide +kernel, ?_, fun w h => ?_⟩
  · unfold Store.readable
    decide
  · unfold Store.readable
    decide
  · rw [double_only (s := busy) h]
    decide

theorem witness_RecordsHaveTheirRanges :
    (∃ r, PutStation.record { goodPutStation with capacity := 999, nearFull := 99, overflow := some 15 } = some r) ∧
    (∃ r, AddEntry.record { goodAddEntry with duration := 65535, lead := 255 } = some r) ∧
    (∃ r, PutSegment.record { goodPutSegment with
      endA := 191, endB := 0, length := 120, kind := 4, direction := 2, availability := 3, arrowA := 9, arrowB := 9 } = some r) ∧
    (∃ r, PutTarget.record { goodPutTarget with node := 191, phrase := 127, kind := 1 } = some r) ∧
    (∃ r, PutEntrance.record { goodPutEntrance with station := some 15, filter := 8, orientation := 1 } = some r) ∧
    (∃ r, PutCabin.record { goodPutCabin with
      label := List.replicate 6 0xFFFF#16, node := 191, station := 15, berths := 6, assist := 1, bank := 3, service := 2
      greeting := { text := [0x41#16], expiry := some 143999 } } = some r) ∧
    (∃ r, PutScreen.record { goodPutScreen with
      node := 191, kind := 1, bank := 3, targets := [34, 35, 36, 37, 38, 39], filter := 2, lines := 4, station := some 15
      beacon := 1 } = some r) ∧
    ({ goodChangeEntry with duration := some 65535, lead := some 255, audience := some 3, highlight := some 1 } : ChangeEntry).valid =
      true ∧
    ({ goodChangeCabin with station := some 15, service := some 2, greeting := some { text := [], expiry := none } } :
      ChangeCabin).valid = true :=
  ⟨⟨_, rfl⟩, ⟨_, rfl⟩, ⟨_, rfl⟩, ⟨_, rfl⟩, ⟨_, rfl⟩, ⟨_, rfl⟩, ⟨_, rfl⟩, by decide, by decide⟩

/-- For the refusals with RANGE: values one past each bound, at slots that pass the checks before; a greeting and an entry whose
time is over at the very minute; and a venue that is absent or no VENUE. -/
theorem witness_TheRangesRefuse :
    let late := atTime (.running { day := 99, minute := 1439, second := 0 }) busy
    (busy.mode.mode = .normal ∧ busy.store.agrees .node 191 none ∧ (busy.store.present .target 15 = true ∧ 15 < 16) ∧
      PutSegment.record { goodPutSegment with index := 383, length := 121 } = none ∧
      PutTarget.record { goodPutTarget with index := 39, node := 192 } = none ∧
      PutStation.record { goodPutStation with index := 15, capacity := 1000 } = none ∧
      PutEntrance.record { goodPutEntrance with index := 31, filter := 3 } = none ∧
      PutCabin.record { goodPutCabin with index := 511, berths := 7 } = none ∧
      PutScreen.record { goodPutScreen with index := 47, lines := 5 } = none ∧
      AddEntry.record { goodAddEntry with start := 144000 } = none) ∧
    (late.now = some 143999 ∧ late.mode.mode = .normal ∧
      (∃ r, AddEntry.record { goodAddEntry with venue := some 16, start := 143949, duration := 30, lead := 0 } = some r ∧
        r.start + r.duration + late.prog.linger = 143999) ∧
      late.store.present .target 16 = true ∧ (late.graph.target 16).map TargetRef.kind = some .venue ∧
      late.store.present .entry 0 = false ∧
      late.prog.row 255 = some busyRow ∧ 143949 + (busyRow.finish - busyRow.start) + late.prog.linger = 143999 ∧
      ({ goodChangeEntry with index := 255, venue := none, start := some 143949 } : ChangeEntry).timing = true) ∧
    (busy.store.present .entry 255 = true ∧ busy.store.isDamaged (.slot .entry 255) = false ∧
      ({ goodChangeEntry with start := some 144000 } : ChangeEntry).valid = false ∧
      (∀ v ∈ [17, 39], ({ goodChangeEntry with venue := some (some v) } : ChangeEntry).valid = true) ∧
      busy.store.present .target 17 = false ∧ busy.store.present .target 39 = true ∧
      (busy.graph.target 39).map TargetRef.kind ≠ some .venue) ∧
    (busy.store.present .cabin 511 = true ∧ busy.store.isDamaged (.slot .cabin 511) = false ∧
      ({ goodChangeCabin with index := 511, berths := some 7 } : ChangeCabin).valid = false ∧
      ({ goodChangeCabin with index := 511, node := some 1 } : ChangeCabin).valid = true ∧ busy.store.present .node 1 = false) ∧
    busy.store.agrees .phrase 895 none ∧ ¬(1 ≤ (List.replicate 49 0x41#16 : Text).length ∧ (List.replicate 49 0x41#16 : Text).length ≤ 48) ∧
    (busy.store.present .segment 383 = true ∧ busy.store.isDamaged (.slot .segment 383) = false) := by
  refine ⟨⟨rfl, (fun _ h => by cases h), ?_⟩, ?_, ?_, ?_, (fun _ h => by cases h), ?_, ?_⟩
  · decide +kernel
  · exact ⟨by decide, rfl, ⟨_, rfl, by decide⟩, by decide +kernel⟩
  all_goals decide +kernel

theorem witness_NodeRequestsAct :
    busy.mode.mode = .normal ∧ busy.graph.lock = false ∧ busy.store.agrees .node 191 (some 255) ∧
    busy.store.agrees .node 40 none ∧ busy.store.present .node 40 = true ∧ (busy.graph.nodeRefs 40).total = 0 ∧
    busy.wf = true ∧ busy.store.ramErrors = [] :=
  ⟨by decide, by decide, agrees_of (by decide), (fun _ e => by cases e), by decide, by decide, by decide +kernel, rfl⟩

theorem witness_SegmentRequestsAct :
    let a : PutSegment := { goodPutSegment with
      index := 383, endA := 0, endB := 191, length := 120, kind := 3, availability := 1, arrowA := 8, arrowB := 9 }
    (∃ r, a.record = some r ∧ (withLock busy).graph.segment 383 = some r.ref) ∧ (withLock busy).graph.lock = true ∧
    busy.store.agrees .segment 383 (some 1) ∧ busy.store.present .node 0 = true ∧ busy.store.present .node 191 = true ∧
    busy.store.present .segment 383 = true ∧ (withEngine { column := 39 } busy).routes.engine = some { column := 39 } ∧
    busy.routes.col 39 = .valid ∧ busy.wf = true ∧ busy.store.ramErrors = [] :=
  ⟨⟨_, rfl, by decide⟩, rfl, agrees_of (by decide), by decide, by decide, by decide, rfl, by decide, by decide +kernel, rfl⟩

/-- A new availability and the one that stands, with a single-bit word. -/
theorem witness_SetSegmentStateActs :
    busy.store.agrees .segment 383 none ∧ busy.store.present .segment 383 = true ∧
    busy.store.isDamaged (.slot .segment 383) = false ∧
    (withErrors [(959, .single)] busy).store.readable [192 + 383 * 2 + 1] ∧
    (busy.store.segRec 383).availability = .openAll ∧ (busy.store.segRec 383).availability ≠ .closed ∧
    busy.wf = true ∧ busy.store.ramErrors = [] ∧ busy.store.readable [192 + 383 * 2 + 1] :=
  ⟨(fun _ e => by cases e), by decide, by decide, by unfold Store.readable; decide, by decide, by decide, by decide +kernel, rfl,
    Store.readable_of_clean rfl _⟩

theorem witness_TargetRequestsAct :
    let a : PutTarget := { index := 39, rev := some 255, node := 0, phrase := 127, kind := 1 }
    (∃ r, a.record = some r ∧ busy.graph.targetNode 39 ≠ some r.node) ∧ busy.store.agrees .target 39 (some 255) ∧
    busy.graph.venueUses 39 = 0 ∧ busy.graph.screenListings 39 = 0 ∧ busy.store.present .target 39 = true ∧
    busy.wf = true ∧ busy.store.present .node 0 = true ∧ busy.store.ramErrors = [] ∧
    busy.graph.targetNode 39 = some 191 :=
  ⟨⟨_, rfl, by decide⟩, agrees_of (by decide), by decide, by decide, by decide, by decide +kernel, by decide, rfl, by decide⟩

/-- A target's and a station's column in flight, with nothing queued and with one column queued, for a change of node or a removal. -/
theorem witness_AbandonedComputations :
    ∀ queue ∈ [[], [{ column := 16, order := 0 : QueuedCol }]], ∀ i ∈ [15, 39],
      let s : State := withEngine { column := i } { busy with routes := { busy.routes with queue } }
      s.QueueInOrder ∧ s.store.ramErrors = [] ∧ s.routes.inFlight i = true ∧ s.routes.engine = some { column := i } ∧
        s.graph.targetNode i = some 191 ∧ s.wf = true := by
  intro queue hq i hi
  simp only [List.mem_cons, List.not_mem_nil, or_false] at hq hi
  rcases hq with rfl | rfl <;> rcases hi with rfl | rfl <;>
    exact ⟨⟨by decide, by decide, by decide, fun _ => by decide, fun h => absurd rfl h⟩, rfl, by decide, rfl, by decide,
      by decide +kernel⟩

theorem witness_GraphReadsAnswer :
    (busy.store.present .node 191 = true ∧ busy.store.isDamaged (.slot .node 191) = false ∧
      (withErrors [(191, .single)] busy).store.readable (Place.slot .node 191).words) ∧
    (busy.store.present .segment 383 = true ∧ busy.store.readable (Place.slot .segment 383).words) ∧
    (busy.store.present .target 39 = true ∧ busy.store.readable (Place.slot .target 39).words) ∧ busy.mode.mode = .normal :=
  ⟨⟨by decide, by decide, by unfold Store.readable; decide⟩, ⟨by decide, Store.readable_of_clean rfl _⟩,
    ⟨by decide, Store.readable_of_clean rfl _⟩, rfl⟩

/-- Lists of keys that hold every entry of the index, once: here with the entries that stand. -/
theorem witness_Counts :
    busy.graph.wf = true ∧ [383].Nodup ∧ (∀ k, busy.graph.segment k ≠ none → k ∈ [383]) ∧
    (∀ k, busy.graph.target k ≠ none → k ∈ [15, 16, 39]) ∧ (∀ k, busy.graph.entry k ≠ none → k ∈ [255]) ∧
    ([383].filterMap busy.graph.segment).countP (fun r => decide (r.endB = 191)) = 1 := by
  refine ⟨by decide, by decide, ?_, ?_, ?_, by decide⟩
  all_goals
    intro k h
    obtain ⟨p, hp, rfl⟩ := get_listed h
    revert p
    decide

theorem witness_CostsAndWalkingMinutes : 1 ≤ 1 ∧ 1 ≤ 120 ∧ 120 ≤ 120 ∧ 1 ≤ 4425 ∧ 4425 ≤ 4425 ∧ 4426 ≤ 4426 := by decide

theorem witness_ComputedColumnsAreLeastCost :
    busy.graph.targetNode 39 = some 191 ∧ 191 < 192 ∧
    (∀ k < 384, busy.store.present .segment k = true → (busy.store.segRec k).endA < 192 ∧ (busy.store.segRec k).endB < 192) ∧
    (computedColumn busy.store busy.graph .normal 39 0).dist = some 360 ∧
    (computedColumn busy.store busy.graph .normal 39 40).dist = none := by decide +kernel

/-- A computation in flight, not overtaken and overtaken, with the queue empty and not. -/
theorem witness_RouteEngineActs :
    let s := withEngine { column := 39 } busy
    let q : QueuedCol := { column := 15, order := 1 }
    (s.routes.engine = some { column := 39 } ∧ s.store.present .segment 383 = true ∧
      s.store.isDamaged (.slot .segment 383) = false ∧ s.store.readable (Place.slot .segment 383).words) ∧
    s.wf = true ∧ s.store.ramErrors = [] ∧ s.routes.queue = [] ∧
    ({ s with routes := { s.routes with queue := [q] } } : State).routes.queue = [q] ∧
    (let d := withErrors [(958, .double)] s
     383 ∉ ({ column := 39 } : Computation).read ∧ d.store.present .segment 383 = true ∧
       d.store.isDamaged (.slot .segment 383) = false ∧ ¬d.store.readable (Place.slot .segment 383).words ∧ d.wf = true ∧
       ∀ w, Table.get .clean d.store.ramErrors w = .double → w ∈ (Place.slot .segment 383).words) ∧
    busy.routes.col 39 = .valid ∧
    (withEngine { column := 39, overtaken := true } busy).routes.engine = some { column := 39, overtaken := true } ∧
    (busy.routes.engine = none ∧ busy.routes.queue = [] ∧ working.routes.engine = some { column := 39 } ∧
      working.routes.isQueued 15 = true ∧ working.routes.inFlight 39 = true ∧ working.routes.isQueued 0 = false ∧
      working.routes.inFlight 0 = false) :=
  ⟨⟨rfl, by decide, by decide, Store.readable_of_clean rfl _⟩, by decide +kernel, rfl, rfl, rfl,
    ⟨by decide, by decide, by decide, by unfold Store.readable; decide, by decide +kernel, fun w h => by
      rw [double_only (s := withEngine { column := 39 } busy) h]
      decide⟩, by decide, rfl, rfl, rfl, rfl, by decide⟩

/-- An EMPTY column; a cell that reads well, one whose flag stands, and one whose word holds a double-bit error. -/
theorem witness_RouteReadsAnswer :
    let flagged := withDamage (.cell 39 191) busy
    let double := withErrors [(24392 + 39 * 192 + 191, .double)] busy
    busy.routes.col 0 = .empty ∧ busy.routes.col 39 ≠ .empty ∧ busy.store.isDamaged (.cell 39 191) = false ∧
      (withErrors [(32071, .single)] busy).store.readable [24392 + 39 * 192 + 191] ∧
      (flagged.wf = true ∧ flagged.routes.col 39 ≠ .empty ∧ flagged.store.isDamaged (.cell 39 191) = true) ∧
      (double.wf = true ∧ double.routes.col 39 ≠ .empty ∧ ¬double.store.readable [24392 + 39 * 192 + 191] ∧
        ∀ w, Table.get .clean double.store.ramErrors w = .double → w = 24392 + 39 * 192 + 191) :=
  ⟨by decide, by decide, by decide, by unfold Store.readable; decide, ⟨by decide +kernel, by decide, by decide +kernel⟩,
    by decide +kernel, by decide, by unfold Store.readable; decide, fun _ h => double_only (s := busy) h⟩

/-- The ticks of the two slow taps, fallen and not, at each second, minute and clock state where the clauses meet; a lamp line at
each turn of its pattern; and an alarm whose tick changes the mode, in DRILL, with an entrance whose crossing completes. -/
theorem witness_TapsPaceTheirUsers :
    let last := due1 (atTime (.running { day := 99, minute := 1438, second := 59 }) busy)
    busy.time.due1 = false ∧ busy.time.due16 = false ∧ (due1 busy).time.due1 = true ∧ (due16 busy).time.due16 = true ∧
    ((due1 (atTime (.running { day := 0, minute := 0, second := 58 }) busy)).time.clock =
      .running { day := 0, minute := 0, second := 58 } ∧ 58 < 59) ∧
    (last.wf = true ∧ last.InRange ∧ last.time.due1 = true ∧ ¬(99 = 99 ∧ 1438 = 1439)) ∧
    ((due1 (atTime (.running { day := 99, minute := 1439, second := 59 }) busy)).time.clock =
      .running { day := 99, minute := 1439, second := 59 }) ∧
    (∃ t, (due1 (atTime (.atLimit { day := 99, minute := 1439, second := 59 }) busy)).time.clock = .atLimit t) ∧
    (due1 busy).time.clock = .unset ∧
    (let lamp (p : Lamp) : State := due16 { busy with muster := { busy.muster with lamps := [(15, p)] } }
     let flash : Lamp := { owner := some 15, onCount := 4, offCount := 4, phaseOn := true, counter := 1, line := true }
     (lamp { flash with fresh := true }).wf = true ∧ ((lamp flash).muster.lamp 15).counter ≤ 1 ∧
       2 ≤ ((lamp { flash with counter := 2 }).muster.lamp 15).counter ∧ (lamp flash).wf = true) ∧
    (let s : State := { inDrill busy with
       mode := { (inDrill busy).mode with filter := { state := .released, hold := 32 } }
       muster := { (inDrill busy).muster with
         beams := [(63, { blocked := true, hold := 2 })], decoders := [(31, { state := .clearingIn })] } }
     s.wf = true ∧ s.time.due16 = false ∧ s.time.due1 = false ∧ s.mode.mode ≠ .normal ∧ s.muster.hasStation 15 = true ∧
       (s.muster.entranceTick 31 false false).crossing = some .inward ∧ s.mode.filter.state ≠ .asserted ∧
       (s.mode.filter.sample true).state = .asserted ∧ s.mode.mode ≠ .muster) :=
  ⟨rfl, rfl, rfl, rfl, ⟨rfl, by decide⟩,
    ⟨by decide +kernel, ⟨by decide, (fun h => by cases h), (fun _ => by decide), busy_inRange.revision, busy_inRange.corrected,
      busy_inRange.linger, busy_inRange.head, busy_inRange.unmatched, busy_inRange.ambiguous, busy_inRange.changes,
      busy_inRange.screenVersion, busy_inRange.tagVersion, busy_inRange.handles, busy_inRange.cabins⟩, rfl, by decide⟩,
    rfl, ⟨_, rfl⟩, rfl, by decide +kernel, by decide +kernel⟩

/-- Values at the ends of their ranges and just past them; an advance that reaches the limit, one that passes it, a retard to
minute 0 and one past it; an amount past the twelve, and an UNSET clock. -/
theorem witness_ClockRequestsSetAndShift :
    let s := atTime (.running { day := 99, minute := 1259, second := 30 }) busy
    let late := atTime (.running { day := 99, minute := 1260, second := 30 }) busy
    let early := atTime (.running { day := 0, minute := 15, second := 0 }) busy
    (busy.wf = true ∧ busy.InRange ∧ 99 < 100 ∧ 1439 < 1440 ∧ 59 < 60) ∧
    (s.wf = true ∧ s.InRange ∧ s.mode.mode ≠ .muster ∧ (99 * 1440 + 1259) + 180 ≤ 143999) ∧
    (late.wf = true ∧ late.InRange ∧ 143999 < (99 * 1440 + 1260) + 180) ∧
    (early.wf = true ∧ early.InRange ∧ 15 ≤ 0 * 1440 + 15 ∧ 0 * 1440 + 15 < 30) ∧
    (2 ≤ 2 ∧ 195 ∉ [15, 30, 45, 60, 75, 90, 105, 120, 135, 150, 165, 180]) ∧
    (busy.mode.mode ≠ .muster ∧ 180 ∈ [15, 30, 45, 60, 75, 90, 105, 120, 135, 150, 165, 180] ∧ busy.time.clock = .unset) ∧
    (atTime (.atLimit { day := 99, minute := 1439, second := 59 }) busy).InRange :=
  ⟨⟨by decide +kernel, busy_inRange, by decide⟩, ⟨by decide +kernel, busy_inRange_at _, by decide⟩,
    ⟨by decide +kernel, busy_inRange_at _, by decide⟩, ⟨by decide +kernel, busy_inRange_at _, by decide⟩, by decide, by decide,
    busy_inRange_at _⟩

theorem witness_ReadClockAnswers :
    busy.time.clock = .unset ∧
    (∃ t, (atTime (.running { day := 99, minute := 1439, second := 59 }) busy).time.clock = .running t) ∧
    (∃ t, (atTime (.atLimit { day := 99, minute := 1439, second := 59 }) busy).time.clock = .atLimit t) :=
  ⟨rfl, ⟨_, rfl⟩, ⟨_, rfl⟩⟩

/-- A start within the lead of minute 0, a lead of 0, a CANCELLED row. -/
theorem witness_ConditionStatesFollowNow :
    ((10 : Int) - 60 < 0 ∧ 10 < 15) ∧ 143999 < 144719 ∧ ({ busyRow with state := .cancelled } : ScheduleRow).state = .cancelled ∧
    (∃ t, (atTime (.running { day := 0, minute := 0, second := 0 }) busy).time.clock = .running t) ∧
    (Ev.start busy).time.clock = .unset := ⟨by decide, by decide, rfl, ⟨_, rfl⟩, rfl⟩

/-- An entry added at handle 0 with a venue; the entry of the highest handle changed, its venue named as absent. -/
theorem witness_EntryRequestsAct :
    let now := atTime (.running { day := 99, minute := 0, second := 0 }) busy
    let a : AddEntry := { goodAddEntry with venue := some 16, start := 143999 }
    let c : ChangeEntry := { goodChangeEntry with index := 255, rev := some 1, venue := some none, start := some 143999 }
    (now.mode.mode ≠ .muster ∧ (∃ r, a.record = some r ∧ ∀ n, now.now = some n → n < r.start + r.duration + now.prog.linger) ∧
      now.store.present .target 16 = true ∧ now.graph.target 16 = some { node := 0, kind := .venue } ∧
      now.store.present .entry 0 = false ∧ now.wf = true ∧ now.store.ramErrors = []) ∧
    (now.store.agrees .entry 255 (some 1) ∧ now.store.present .entry 255 = true ∧
      now.store.isDamaged (.slot .entry 255) = false ∧ c.valid = true ∧ c.timing = true ∧
      now.prog.row 255 = some busyRow ∧ busyRow.state ≠ .ended ∧ busyRow.state ≠ .cancelled ∧
      now.store.readable (changeEntryWords c) ∧ ∀ n, now.now = some n → n < 143999 + 30 + now.prog.linger) := by
  refine ⟨⟨by decide, ⟨_, rfl, fun n h => ?_⟩, by decide, by decide, by decide, by decide +kernel, rfl⟩, agrees_of (by decide), by decide, by decide,
    by decide, by decide, by decide, by decide, by decide, Store.readable_of_clean rfl _, fun n h => ?_⟩ <;>
  · cases h
    decide

theorem witness_EntriesAreCancelledAndRetired :
    let done : ScheduleRow := { busyRow with start := 0, finish := 30, state := .ended }
    let late := atTime (.running { day := 0, minute := 30, second := 0 }) { busy with prog := { schedule := [(255, some done)] } }
    busy.mode.mode ≠ .muster ∧ busy.store.agrees .entry 255 none ∧ busy.store.present .entry 255 = true ∧
    busy.store.isDamaged (.slot .entry 255) = false ∧ busy.prog.row 255 = some busyRow ∧ busyRow.state ≠ .ended ∧
    busyRow.state ≠ .cancelled ∧ busy.store.readable [1064 + 255 * 12 + 11] ∧ busy.wf = true ∧ busy.InRange ∧
    busy.store.ramErrors = [] ∧
    (late.wf = true ∧ late.InRange ∧ late.mode.mode ≠ .muster ∧ late.store.ramErrors = [] ∧ late.prog.row 255 = some done ∧
      (late.now.any fun n => done.isOver n (min 0 60)) = true) :=
  ⟨by decide, (fun _ e => by cases e), by decide, by decide, by decide, by decide, by decide, Store.readable_of_clean rfl _,
    by decide +kernel, busy_inRange, rfl, by decide +kernel, ⟨busy_inRange.divider, (fun h => by cases h), (fun h => by cases h),
      busy_inRange.revision, busy_inRange.corrected, by decide, busy_inRange.head, busy_inRange.unmatched,
      busy_inRange.ambiguous, busy_inRange.changes, busy_inRange.screenVersion, busy_inRange.tagVersion, (fun h hr => by
        obtain ⟨p, hp, e⟩ := get_listed hr
        simp only [atTime, List.mem_cons, List.not_mem_nil, or_false] at hp
        rw [← e, hp]
        decide), busy_inRange.cabins⟩, by decide, rfl, by decide, by decide⟩


theorem witness_ProgrammeReadsAnswer :
    (busy.store.present .entry 255 = true ∧ busy.store.isDamaged (.slot .entry 255) = false ∧
      busy.store.readable (Place.slot .entry 255).words ∧ busy.prog.row 255 = some busyRow) ∧
    busy.store.present .entry 0 = false ∧ (∀ h < 256, fullProgramme.store.present .entry h = true) ∧
    busy.wf = true ∧ busy.store.ramErrors = [] :=
  ⟨⟨by decide, by decide, Store.readable_of_clean rfl _, by decide⟩, by decide, by decide +kernel, by decide +kernel, rfl⟩

theorem witness_StationAndEntranceRequestsAct :
    let a : PutStation := { goodPutStation with index := 15, rev := some 2, node := 191, capacity := 999, lamp := some 15 }
    let b : PutStation := { goodPutStation with node := 0, overflow := some 15 }
    (busy.wf = true ∧ busy.mode.mode = .normal ∧ busy.store.agrees .station 15 (some 2) ∧ (∃ r, a.record = some r) ∧
      (withLock busy).graph.stationNode 15 = some a.node ∧ busy.store.present .node 191 = true ∧
      (∀ k < 16, k ≠ 15 → busy.muster.settings k = none) ∧ busy.muster.hasStation 15 = true ∧ busy.store.ramErrors = []) ∧
    ((∃ r, b.record = some r) ∧ busy.muster.hasStation 0 = false ∧ busy.store.present .node 0 = true ∧
      busy.graph.targetNode 0 ≠ some 0) ∧
    (busy.store.present .station 15 = true ∧ busy.graph.lock = false ∧ busy.graph.screenListings 15 = 0) ∧
    ((∃ r, PutEntrance.record { goodPutEntrance with index := 31, station := some 15, filter := 8 } = some r) ∧
      busy.store.agrees .entrance 31 (some 1) ∧ busy.store.present .entrance 31 = true) :=
  ⟨⟨by decide +kernel, rfl, agrees_of (by decide), ⟨_, rfl⟩, by decide, by decide, by decide, by decide, rfl⟩,
    ⟨⟨_, rfl⟩, by decide, by decide, by decide⟩, ⟨by decide, rfl, by decide⟩, ⟨_, rfl⟩, agrees_of (by decide), by decide⟩

/-- Stations 12 to 15, each overflowing to the one below: 15 FULL, 14 SECURED, 13 and 12 as given. -/
def overflowing (third second : StationState) : Muster :=
  let x (o : Option Nat) : Option StationSettings := some { capacity := 100, nearFull := 90, overflow := o, lamp := none }
  { stationSettings := [(12, x none), (13, x (some 12)), (14, x (some 13)), (15, x (some 14))]
    stations := [(12, { state := third }), (13, { state := second }), (14, { state := .secured }), (15, { state := .full })] }

/-- Redirection: to the second station reached, past it to the third, the only one reached, and nowhere. -/
theorem witness_Redirection :
    ((overflowing .taking .nearFull).hasStation 15 = true ∧ (overflowing .taking .nearFull).reached 15 1 = some 14 ∧
      (overflowing .taking .nearFull).reached 15 2 = some 13 ∧ (overflowing .taking .nearFull).reached 15 3 = some 12 ∧
      (overflowing .taking .nearFull).resolved 15 = some { station := 13, askCrew := false } ∧
      (overflowing .taking .full).resolved 15 = some { station := 12, askCrew := false }) ∧
    (overflowing .full .full).resolved 15 = some { station := 15, askCrew := true } ∧
    (overflowing .taking .full).resolved 12 = some { station := 12, askCrew := false } ∧
    (overflowing .taking .full).hasStation 11 = false := by decide

/-- A station in each state that the control requests ask about. -/
theorem witness_StationControlGivesStates :
    let x : StationSettings := { capacity := 100, nearFull := 90, overflow := none, lamp := some 15 }
    let live (st : StationState) (h : Nat) (s : State) : State :=
      { s with muster := { s.muster with stations := [(15, { state := st, head := h })] } }
    (100 ≤ 100 ∧ 99 < 100 ∧ 100 * 90 ≤ 90 * 100 ∧ 89 * 100 < 100 * 90) ∧
    (∀ st ∈ [StationState.standby, .taking, .nearFull, .full, .secured, .notSafe],
      (live st 1999 (inDrill busy)).wf = true ∧ (live st 1999 (inDrill busy)).muster.settings 15 = some x ∧
      ((live st 1999 (inDrill busy)).muster.live 15).state = st) ∧
    (inDrill busy).mode.mode ≠ .normal ∧ busy.mode.mode = .normal ∧ busy.store.isDamaged (.slot .station 15) = false ∧
    (let s := live .notSafe 0 (withDamage (.slot .station 15) busy)
     s.wf = true ∧ s.muster.settings 15 = some x ∧ s.store.isDamaged (.slot .station 15) = true) ∧
    busy.muster.settings 14 = none := by decide +kernel

/-- MARK UNSAFE, a crossing that fills the station, and the tick that completes it, each with a change of an effective station and
no error in the RAM. -/
theorem witness_RedirectionChanges :
    busy.wf = true ∧ busy.store.ramErrors = [] ∧
    (after (.markUnsafe (.fields 15)) busy).muster.effectiveOf 15 = some { station := 15, askCrew := true } ∧
    busy.muster.effectiveOf 15 = some { station := 15, askCrew := false } ∧
    (let s : State := { inDrill busy with muster := { (inDrill busy).muster with
       stations := [(15, { state := .nearFull, head := 99 })], decoders := [(31, { state := .clearingIn })]
       beams := [(63, { blocked := true, hold := 2 })] } }
     s.wf = true ∧ s.store.ramErrors = [] ∧ (s.muster.entranceTick 31 false false).taken = true ∧
       s.muster.effectiveOf 15 = some { station := 15, askCrew := false } ∧
       (after (.takenChange 31 false false) s).muster.effectiveOf 15 = some { station := 15, askCrew := true } ∧
       (after (.tick64Hz 0 false) s).muster.effectiveOf 15 = some { station := 15, askCrew := true }) := by decide +kernel

theorem witness_DecodersFollowTheTable :
    let b : Beam := { blocked := false, hold := 2 }
    (true ≠ b.blocked ∧ b.hold + 1 ≤ 4 ∧ 2 < b.hold + 1) ∧
    DecoderState.outer ≠ .fault ∧
    (let d : Decoder := { state := .outer, stuckFirst := 1919, stuckSecond := 65535 }
     d.stuckFirst ≤ 65535 ∧ d.stuckSecond ≤ 65535 ∧ d.stuckFirst + 1 = 1920 ∧ d.state ≠ .fault) ∧
    (let d : Decoder := { state := .fault, clearing := 127 }
     128 ≤ d.clearing + 1 ∧ d.state = .fault) := by decide

/-- An inward and an outward crossing complete, an ambiguous one, a FAULT, a FAULT left, and a lamp's turn. -/
theorem witness_EntranceEventsCount :
    let gate (d : Decoder) (first second : Beam) (l : StationLive) : State := { inDrill busy with muster := { (inDrill busy).muster with
      beams := Table.set {} (Table.set {} [] 62 first) 63 second
      decoders := Table.set {} [] 31 d, stations := Table.set {} [] 15 l } }
    let open' : Beam := {}
    let turning : Beam := { blocked := true, hold := 2 }
    let inward := gate { state := .clearingIn } open' turning { head := 1999 }
    let outward := gate { state := .clearingOut } turning open' {}
    let muddled := gate { state := .muddled } turning open' { ambiguous := 255 }
    let stuck := gate { state := .outer, stuckFirst := 1919 } { blocked := true } open' {}
    let clearing := gate { state := .fault, clearing := 127 } open' open' {}
    (inward.wf = true ∧ (inward.muster.entranceTick 31 false false).taken = true ∧
      (inward.muster.entranceTick 31 false false).crossing = some .inward ∧ inward.muster.hasStation 15 = true ∧
      (inward.muster.entrance 31).bind EntranceRec.station = some 15 ∧ inward.mode.mode ≠ .normal) ∧
    (outward.wf = true ∧ (outward.muster.entranceTick 31 false false).crossing = some .outward) ∧
    (muddled.wf = true ∧ (muddled.muster.entranceTick 31 false false).crossing = some .ambiguous) ∧
    (stuck.wf = true ∧ (stuck.muster.entranceTick 31 true false).faulted = true) ∧
    (clearing.wf = true ∧ (clearing.muster.entranceTick 31 false false).cleared = true) ∧
    (let s : State := due16 { busy with muster := { busy.muster with lamps := [(15, { onCount := 8, offCount := 8, counter := 1 })] } }
     s.wf = true ∧ s.time.due16 = true ∧ (s.muster.lamp 15).fresh = false ∧ (s.muster.lamp 15).onCount ≠ 0 ∧
       (s.muster.lamp 15).offCount ≠ 0 ∧ (s.muster.lamp 15).counter ≤ 1) := by decide +kernel

theorem witness_StationAndLinkReadsAnswer :
    (busy.store.present .station 15 = true ∧ busy.store.isDamaged (.slot .station 15) = false ∧
      busy.store.readable (Place.slot .station 15).words) ∧
    (busy.store.present .entrance 31 = true ∧ busy.store.isDamaged (.slot .entrance 31) = false ∧
      busy.store.readable (Place.slot .entrance 31).words) ∧
    busy.muster.hasStation 0 = false ∧ busy.muster.hasStation 15 = true ∧
    busy.muster.effectiveOf 15 = some { station := 15, askCrew := false } ∧ busy.muster.entrance 0 = none ∧
    busy.muster.entrance 31 = some { station := some 15, filter := 2 } ∧ busy.muster.roll = none ∧
    (Table.wf none busy.muster.roster = true ∧ (∀ c, busy.muster.rosterEntry c ≠ none → c < 512) ∧ busy.muster.expected 15 = 6 ∧
      busy.muster.assistance 15 = 1) :=
  ⟨⟨by decide, by decide, Store.readable_of_clean rfl _⟩, ⟨by decide, by decide, Store.readable_of_clean rfl _⟩, by decide,
    by decide, by decide, by decide, by decide, rfl, by decide, (fun c h => by
      obtain ⟨p, hp, e⟩ := get_listed h
      have : ∀ p ∈ busy.muster.roster, p.1 < 512 := by decide
      exact e ▸ this p hp), by decide +kernel, by decide +kernel⟩

theorem witness_CabinWritesAct :
    let p : PutCabin := { goodPutCabin with index := 511, rev := some 255, node := 191, station := 15, berths := 6 }
    let c : ChangeCabin := { goodChangeCabin with
      index := 511, node := some 191, greeting := some { text := [0x41#16], expiry := some 143999 } }
    (busy.mode.mode = .normal ∧ busy.store.agrees .cabin 511 (some 255) ∧ (∃ r, p.record = some r) ∧
      busy.store.present .node 191 = true ∧ p.greeting.expiry = none) ∧
    (busy.mode.mode ≠ .muster ∧ c.rosterGroup = true ∧ busy.store.present .cabin 511 = true ∧
      busy.store.isDamaged (.slot .cabin 511) = false ∧ c.valid = true ∧ busy.now = none) ∧
    busy.store.readable (Place.slot .cabin 511).words ∧ busy.wf = true ∧ busy.store.ramErrors = [] ∧
    ((working.composer.tag 511).content ≠ [] ∧ (working.tag.link 511).service = .inService ∧
      (working.tag.link 511).refresh = none ∧ (∀ v, working.tag.transfer ≠ some (.send 511 v)) ∧ working.mode.mode = .normal ∧
      working.store.present .cabin 511 = true ∧ (busy.composer.tag 511).content = []) :=
  ⟨⟨rfl, agrees_of (by decide), ⟨_, rfl⟩, by decide, rfl⟩, by decide, Store.readable_of_clean rfl _, by decide +kernel, rfl,
    by decide, rfl, rfl, (fun _ h => by cases h), rfl, by decide, rfl⟩

/-- A cabin whose fields fit a payload, one whose fields do not, a label that a cabin bears and one that none does. -/
theorem witness_CabinReadsAnswer :
    let long : CabinRec := { label := List.replicate 6 0x9000#16, occupant := some (List.replicate 32 0x9000#16)
                             greeting := some { text := List.replicate 64 0x9000#16, expiry := none } }
    let bytes (r : CabinRec) : List Byte :=
      textBytes r.label ++ num1 r.node ++ num1 r.station ++ num1 r.berths ++ flag r.assist ++ num1 r.bank ++
        num1 r.service.code ++ optTextBytes r.occupant ++ optTextBytes (r.greeting.map Greeting.text) ++
        opt3 (r.greeting.bind Greeting.expiry) ++ num1 0
    (busy.store.present .cabin 511 = true ∧ busy.store.isDamaged (.slot .cabin 511) = false ∧
      busy.store.ramErrors = [] ∧ (bytes (busy.store.cabinRec 511)).length ≤ 200 ∧ 200 < (bytes long).length) ∧
    (busy.store.cabinRec 511).label = [0x41#16] ∧ (∀ n < 512, n ≠ 511 → busy.store.present .cabin n = false) := by
  decide +kernel

theorem busy_inSession : busy.InSession := ⟨by decide, by decide, by decide⟩

theorem witness_ModeRequestsChangeTheMode :
    (busy.wf = true ∧ busy.InSession ∧ busy.mode.mode = .normal) ∧
    ((inDrill busy).wf = true ∧ (inDrill busy).InSession ∧ (inDrill busy).mode.mode = .drill) ∧
    (let s := { inMuster busy with mode := { (inMuster busy).mode with filter := { state := .released, hold := 0 } } }
     s.wf = true ∧ s.InSession ∧ s.mode.mode = .muster ∧ s.mode.filter.state = .released) ∧
    (inMuster busy).mode.filter.state ≠ .released :=
  ⟨⟨by decide +kernel, busy_inSession, rfl⟩, ⟨by decide +kernel, ⟨by decide, by decide, by decide⟩, rfl⟩,
    ⟨by decide +kernel, ⟨by decide, by decide, by decide⟩, rfl, rfl⟩, by decide⟩

/-- A filter one sample before a change is taken, and one that settles, each way. -/
theorem witness_TheAlarmMakesTheMuster :
    let filtered (f : FilterState) (s : State) : State := { s with mode := { s.mode with filter := { state := f, hold := 32 } } }
    ∀ f ∈ [FilterState.released, .asserted, .settling (some true), .settling (some false)],
      (filtered f busy).wf = true ∧ (filtered f busy).InSession ∧ 32 ≤ (filtered f busy).mode.filter.hold ∧
        (filtered f (inMuster busy)).mode.mode = .muster ∧ (filtered f busy).mode.mode ≠ .muster := by
  intro filtered f hf
  refine ⟨?_, ⟨rfl, rfl, rfl⟩, by simp [filtered], rfl, by simp [filtered, busy]⟩
  have h : busy.wf = true := by decide +kernel
  exact h

theorem witness_ScreenRequestsAct :
    let a : PutScreen := { goodPutScreen with index := 47, rev := some 1, kind := 1, targets := [16, 39], lines := 4 }
    let b : PutScreen := { goodPutScreen with index := 0 }
    (busy.wf = true ∧ busy.mode.mode = .normal ∧ busy.store.agrees .screen 47 (some 1) ∧ (∃ r, a.record = some r) ∧
      busy.store.present .node 0 = true ∧ ∀ x ∈ a.targets, busy.store.present .target x = true) ∧
    ((∃ r, b.record = some r ∧ r.targets = [] ∧ r.lines = 0) ∧ busy.store.ramErrors = []) ∧
    (busy.store.present .screen 47 = true ∧ busy.store.isDamaged (.slot .screen 47) = false ∧
      busy.store.readable (Place.slot .screen 47).words) :=
  ⟨⟨by decide +kernel, rfl, agrees_of (by decide), ⟨_, rfl⟩, by decide, by decide⟩, ⟨⟨_, rfl, rfl, rfl⟩, rfl⟩,
    by decide, by decide, Store.readable_of_clean rfl _⟩

theorem witness_ContentAndPhrasesAnswer :
    (47 < 48 ∧ ∀ f, some 11 = some f → f ≤ 11) ∧
    (busy.mode.mode ≠ .muster ∧ 3 < 4 ∧ 16 ≤ 127 ∧ 127 < 128 ∧ busy.store.agrees .phrase (3 * 256 + 127) (some 1) ∧
      (List.replicate 48 0x41#16).length ≤ 48 ∧ 0#16 ∉ List.replicate 48 0x41#16) ∧
    busy.store.present .phrase (0 * 256 + 16) = false ∧ busy.store.present .phrase (3 * 256 + 127) = true ∧
    busy.store.isDamaged (.slot .phrase (3 * 256 + 127)) = false ∧
    busy.store.readable (Place.slot .phrase (3 * 256 + 127)).words ∧
    (busy.wf = true ∧ busy.store.ramErrors = [] ∧ busy.store.present .screen 47 = true ∧
      busy.store.isDamaged (.slot .screen 47) = false ∧ busy.store.present .screen 0 = false) ∧
    (let s := withDamage (.slot .screen 47) busy
     s.wf = true ∧ s.store.ramErrors = [] ∧ s.store.present .screen 47 = true ∧ s.store.isDamaged (.slot .screen 47) = true) ∧
    (∀ q u, Item.held ≠ .phrase q u) :=
  ⟨⟨by decide, fun f e => by cases e; decide⟩, ⟨by decide, by decide, by decide, by decide, agrees_of (by decide), by decide,
    by decide⟩, by decide, by decide, by decide, Store.readable_of_clean rfl _, ⟨by decide +kernel, rfl, by decide⟩,
    by decide +kernel, (fun _ _ h => by cases h)⟩

/-- Each choice of the screen arbiter: a due reply, a queued send, a due kiosk poll before and behind the pointer, a probe. -/
theorem witness_TheScreenArbiterChooses :
    let poll : ScreenChannel := { kioskDue := [3, 47], kioskPtr := 47 }
    let wrap : ScreenChannel := { kioskDue := [3], kioskPtr := 47 }
    let probing : ScreenChannel := { silent := [0, 47], probeDue := [47] }
    (busy.scr.transfer = none ∧ busy.scr.reply = none) ∧
    ({ reply := some { screen := 47, body := .refusedMuster } } : ScreenChannel).reply ≠ none ∧
    ({ sendQueue := [47, 0] } : ScreenChannel).sendQueue = 47 :: [0] ∧
    (47 < 48 ∧ 47 ∈ poll.kioskDue ∧ poll.kioskPtr ≤ 47 ∧ ∀ m < 48, m ∈ poll.kioskDue → poll.kioskPtr ≤ m → 47 ≤ m) ∧
    (3 ∈ wrap.kioskDue ∧ (∀ m < 48, m ∈ wrap.kioskDue → m < wrap.kioskPtr) ∧ ∀ m < 48, m ∈ wrap.kioskDue → 3 ≤ m) ∧
    (probing.silent = [0] ++ 47 :: [] ∧ (∀ m ∈ [0], m ∉ probing.probeDue) ∧ 47 ∈ probing.probeDue) := by decide

/-- Each transfer in flight on the screen channel; a kiosk whose record can be read. -/
theorem witness_ScreenAnswersAct :
    let at' (x : ScreenTransfer) (s : State) : State := { s with scr := { s.scr with transfer := some x } }
    (∀ x ∈ [ScreenTransfer.send 47 65535, .probe 47 0, .reply 47, .poll 47], (at' x busy).wf = true) ∧
    (at' (.poll 47) (inDrill busy)).mode.mode ≠ .normal ∧
    (let s := at' (.poll 47) busy
     s.mode.mode = .normal ∧ s.graph.screen 47 = some { node := 0, targets := [16] } ∧ s.store.present .screen 47 = true ∧
       s.store.isDamaged (.slot .screen 47) = false ∧ s.store.ramErrors = [] ∧ s.routes.col 0 = .empty ∧
       s.routes.col 39 ≠ .empty ∧ s.store.present .target 39 = true) ∧
    (143999 < 144000 ∧ 143999 ≤ 143999 ∧
      [Audience.all, .adult, .family, .youth][3]? = some .youth ∧ (3 : Nat) < 4) ∧
    (busy.scr.link 47).presence = .kiosk := by decide +kernel

theorem witness_ScreenSilenceAndTimers :
    let with' (l : ScreenLink) (x : ScreenTransfer) : State :=
      { busy with scr := { busy.scr with links := [(47, l)], transfer := some x } }
    let two : ScreenLink := { presence := .kiosk, attempts := 2, missedPolls := 2 }
    ((with' two (.send 47 1)).wf = true ∧ 2 ≤ ((with' two (.send 47 1)).scr.link 47).attempts) ∧
    ((with' two (.poll 47)).wf = true ∧ 2 ≤ ((with' two (.poll 47)).scr.link 47).missedPolls) ∧
    ((busy.scr.link 47).attempts < 2 ∧ (busy.scr.link 47).presence = .kiosk ∧ (busy.scr.link 47).silent = false ∧
      (busy.scr.link 47).paused = false ∧ 47 ∉ busy.scr.kioskDue) ∧
    (let s : State := { busy with scr := { busy.scr with silent := [0] } }
     s.wf = true ∧ 0 ∈ s.scr.silent ∧ (s.scr.link 0).paused = false ∧ 0 ∉ s.scr.probeDue) := by decide +kernel

/-- Each choice of the tag arbiter: a due DONE poll, a send in NORMAL, one of the walk, one of the sweep list, a rotation poll where
nothing is left to send, where 8 tags refresh, and in a session; and a rotation that is not due. -/
theorem witness_TheTagArbiterChooses :
    let tags (c : TagChannel) (s : State) : State := { s with tag := c }
    let r : Refresh := { version := 1, acceptedAt := 0, pollAt := 0 }
    let d : DueDonePoll := { moment := 1, cabin := 0 }
    let c : TagChannel := { doneDue := [{ moment := 1, cabin := 511 }, d] }
    (c.transfer = none ∧ d ∈ c.doneDue ∧ c.doneDue ≠ [] ∧
      ∀ e ∈ c.doneDue, d.moment < e.moment ∨ (d.moment = e.moment ∧ d.cabin ≤ e.cabin)) ∧
    (let c : TagChannel := { routine := [0, 511], links := [(0, { refresh := some r })] }
     c.inRefresh.length < 8 ∧ c.routine = [0] ++ 511 :: [] ∧ c.refreshing 0 = true ∧ c.refreshing 511 = false) ∧
    (let c : TagChannel := { routine := [0], links := [(0, { refresh := some r })], rotationDue := true }
     c.doneDue = [] ∧ c.inRefresh.length < 8 ∧ (∀ m ∈ c.routine, c.refreshing m = true) ∧ c.rotationDue = true) ∧
    (let c : TagChannel := { links := (List.range 8).map fun n => (n, { refresh := some r }), rotationDue := true }
     c.doneDue = [] ∧ 8 ≤ c.inRefresh.length ∧ (c.link 511).refresh = none ∧ c.rotationDue = true) ∧
    (let s := inDrill busy
     s.tag.sweep = some {} ∧ s.store.present .cabin 511 = true ∧ (s.tag.link 511).service = .inService ∧
       (s.tag.link 511).refresh = none ∧ (∀ m < 511, s.store.present .cabin m = false) ∧ s.mode.mode ≠ .normal) ∧
    (let s := tags { suspended := true, sweep := some { walk := 512, list := [511] } } (inDrill busy)
     s.tag.sweep = some { walk := 512, list := [511] }) ∧
    (let s := tags { suspended := true, sweep := some { walk := 512, list := [] }, rotationDue := true } (inDrill busy)
     s.tag.sweep = some { walk := 512, list := [] } ∧ s.tag.rotationDue = true ∧ s.store.present .cabin 511 = true) ∧
    (let s := tags { rotationDue := true, rotationPtr := 511 } busy
     s.tag.routine = [] ∧ s.tag.rotationDue = true ∧ s.tag.rotationPtr ≤ 511 ∧ s.store.present .cabin 511 = true) ∧
    busy.tag.rotationDue = false := by
  decide +kernel

/-- Each transfer in flight on the tag channel; a tag that refreshes, one that is SILENT, a button that differs. -/
theorem witness_TagAnswersAct :
    let with' (l : TagLink) (x : TagTransfer) : State :=
      { busy with tag := { busy.tag with links := Table.set {} [] 511 l, transfer := some x } }
    let r : Refresh := { version := 1, acceptedAt := 0, pollAt := 16384 }
    (∀ x ∈ [TagTransfer.send 511 1, .donePoll 511, .statusPoll 511], (with' { refresh := some r } x).wf = true) ∧
    ((with' { refresh := some r } (.donePoll 511)).tag.link 511).refresh = some r ∧
    ((with' { service := .fault } (.donePoll 511)).tag.link 511).refresh = none ∧
    ((with' { service := .silent } (.statusPoll 511)).tag.link 511).service ≠ .inService ∧
    (busy.cabinTable.summary 511).map Summary.service = some Service.none ∧
    (busy.cabinTable.summary 511).map Summary.service ≠ some Service.makeUp ∧ Service.makeUp ≠ .none ∧ busy.store.present .cabin 511 = true ∧
    busy.store.present .cabin 0 = false ∧ busy.store.isDamaged (.slot .cabin 511) = false := by decide +kernel

/-- A report that differs on a record whose flag stands, and on one whose first word holds a double-bit error. -/
theorem witness_TagAnswersAct_damaged :
    let polled (s : State) : State := { s with tag := { s.tag with transfer := some (.statusPoll 511) } }
    let flagged := polled (withDamage (.slot .cabin 511) busy)
    let double := polled (withErrors [(4136 + 511 * 28, .double)] busy)
    (flagged.wf = true ∧ flagged.store.isDamaged (.slot .cabin 511) = true ∧ flagged.store.ramErrors = []) ∧
    (double.wf = true ∧ ¬double.store.readable [4136 + 511 * 28, 4136 + 511 * 28 + 1]) :=
  ⟨⟨by decide +kernel, by decide +kernel, rfl⟩, by decide +kernel, by unfold Store.readable; decide⟩

theorem witness_TagAnswersAct_reads : busy.store.readable [4136 + 511 * 28, 4136 + 511 * 28 + 1] :=
  Store.readable_of_clean rfl _

theorem witness_TagSilenceAndTimers :
    let with' (l : TagLink) : State := { busy with tag := { busy.tag with links := Table.set {} [] 511 l, transfer := some (.send 511 1) } }
    let r : Refresh := { version := 1, acceptedAt := 0, pollAt := 16384 }
    (with' { missed := 1 }).wf = true ∧ 1 ≤ ((with' { missed := 1 }).tag.link 511).missed ∧
    ((with' {}).tag.link 511).missed = 0 ∧ ((with' { refresh := some r }).tag.link 511).refresh = some r ∧
    (∀ d ∈ busy.tag.doneDue, d.cabin ≠ 511) ∧ ((with' { dirty := true }).tag.link 511).dirty = true := by decide +kernel

/-! ### Single steps, the results worked out from the manual. -/

/-- R187, after reset: every item 0. -/
theorem test_readStatus_reset : reply .readStatus State.reset = some (.ok, List.replicate 10 0#8) := by decide +kernel

/-- R186, R193: the enables of MODE and ENTRANCE, bits 0 and 7. -/
theorem test_setNoticeEnables : reply (.setNoticeEnables (.fields 0x81)) busy = some (.ok, [0x81#8, 0#8, 0#8]) := by
  decide +kernel

/-- R182, section 12.2: NOT READY, code 0xF0, no payload, and their exclusive-or. -/
theorem test_fetch_notReady : (after (.fetch .afterWork) busy).port.spiOut =
    .frame [0x05#8, 0xF0#8, 0x00#8, 0xF5#8] := by decide

/-- R191: an OK response with one payload byte and the discard flag: 80 91 01 40, check 50. -/
theorem test_frame_discard : ({ status := .ok, code := 0x91#8, payload := [0x40#8], discard := true } : Response).frame =
    [0x80#8, 0x91#8, 0x01#8, 0x40#8, 0x50#8] := by decide

/-- R11: the revision that stands goes with REVISION; R10: revision 255 goes to 0. -/
theorem test_putNode_revision :
    reply (.putNode (.fields { index := 191, rev := some 0, deck := 5 })) busy = some (.revision, [255#8]) ∧
    (after (.putNode (.fields { index := 191, rev := some 255, deck := 5 })) busy).store.rev .node 191 = 0 := by
  decide +kernel

/-- R27: node 191 has a segment end, two targets, a station, no screen and a cabin. -/
theorem test_removeNode_referenced :
    reply (.removeNode (.fields { index := 191, rev := none })) busy =
      some (.reference, [0#8, 1#8, 2#8, 1#8, 0#8, 0#8, 1#8]) := by decide +kernel

/-- R38 and the worked sequence of chapter 2: under the lock a changed length is refused. -/
theorem test_putSegment_locked :
    let a : PutSegment := { goodPutSegment with
      index := 383, endA := 0, endB := 191, length := 119, kind := 3, arrowA := 8, arrowB := 9 }
    (reply (.putSegment (.fields a)) (withLock busy)).map Prod.fst = some .locked ∧
    (reply (.putSegment (.fields { a with length := 120, availability := 2 })) (withLock busy)).map Prod.fst = some .ok := by
  decide +kernel

/-- R33: CLOSED makes the columns STALE and raises the revision; OPEN, which stands, touches no column. -/
theorem test_setSegmentState :
    (after (.setSegmentState (.fields { index := 383, rev := none, availability := 1 })) busy).routes.col 39 = .stale ∧
    (after (.setSegmentState (.fields { index := 383, rev := none, availability := 0 })) busy).routes.col 39 = .valid ∧
    (after (.setSegmentState (.fields { index := 383, rev := none, availability := 0 })) busy).store.rev .segment 383 = 2 := by
  decide +kernel

/-- R26: a target with a venue use stays a VENUE; the answer of READ REFERENCES (R36) is its counts. -/
theorem test_putTarget_venue :
    (reply (.putTarget (.fields { index := 16, rev := none, node := 0, phrase := 40, kind := 1 })) busy).map Prod.fst =
      some .reference ∧
    reply (.readReferences (.fields { kind := 2, index := 16 })) busy = some (.ok, [1#8, 0#8, 1#8]) := by decide +kernel

/-- The table of R41, and of R61. -/
theorem test_costs : segmentCost 13 .openDeck = 17 ∧ segmentCost 5 .ramp = 8 ∧ segmentCost 7 .stair = 21 ∧
    segmentCost 120 .lift = 240 ∧ walking .normal (some 76) = .minutes 2 ∧ walking .drill (some 4425) = .minutes 59 ∧
    walking .normal (some 4426) = .phrase 3 ∧ walking .muster none = .phrase 1 := by decide

/-- The four nodes of chapter 3, with target 21 at node 3. -/
def fourNodes : State := {
  store := {
    dir := [slot .node 0 1, slot .node 1 1, slot .node 2 1, slot .node 3 1, slot .segment 0 1, slot .segment 1 1,
      slot .segment 2 1, slot .segment 3 1, slot .target 21 1]
    segments := [(0, { endA := 0, endB := 1, length := 40, arrowB := .back }),
      (1, { endA := 1, endB := 3, length := 10, kind := .stair, arrowA := .upStairs, arrowB := .downStairs }),
      (2, { endA := 0, endB := 2, length := 30, kind := .ramp, arrowA := .right, arrowB := .left }),
      (3, { endA := 2, endB := 3, length := 20, kind := .openDeck, arrowB := .back })]
    targets := [(21, { node := 3, phrase := 40 })] }
  graph := {
    refSegments := [
      (0, some { endA := 0, endB := 1, length := 40, kind := .corridor, direction := .both, arrowA := .ahead, arrowB := .back }),
      (1, some { endA := 1, endB := 3, length := 10, kind := .stair, direction := .both, arrowA := .upStairs
                 arrowB := .downStairs }),
      (2, some { endA := 0, endB := 2, length := 30, kind := .ramp, direction := .both, arrowA := .right, arrowB := .left }),
      (3, some { endA := 2, endB := 3, length := 20, kind := .openDeck, direction := .both, arrowA := .ahead, arrowB := .back })]
    refTargets := [(21, some { node := 3, kind := .venue })] }
  routes := { cols := [(21, .stale)], engine := some { column := 21 } } }

/-- Step 1 of the worked sequence: distances 0, 30, 25, 70; of two least walks from node 0 the lower segment; the engine
becomes IDLE with the ROUTES notice (R57), and LOOK UP ROUTE answers AHEAD and 1 minute. -/
theorem test_computationCompletes :
    let t := after .computationCompletes fourNodes
    t.store.cell 21 0 = { dist := some 70, next := some 0 } ∧ t.store.cell 21 1 = { dist := some 30, next := some 1 } ∧
    t.store.cell 21 2 = { dist := some 25, next := some 3 } ∧ t.store.cell 21 3 = { dist := some 0, next := none } ∧
    t.routes.col 21 = .valid ∧ t.routes.engine = none ∧ t.isPending .routes = true ∧
    reply (.lookUpRoute (.fields { target := 21, node := 0 })) t =
      some (.ok, [1#8, 0#8, 0#8, 70#8, 0#8, 0#8, 0#8, 6#8, 1#8, 0#8]) := by decide +kernel

/-- Step 2 of the worked sequence: s1 CLOSED withdraws the cells of nodes 0 and 1 and keeps those of 2 and 3. -/
theorem test_setSegmentState_withdraws :
    let t := after (.setSegmentState (.fields { index := 1, rev := none, availability := 1 }))
      (after .computationCompletes fourNodes)
    t.store.cell 21 0 = {} ∧ t.store.cell 21 1 = {} ∧ t.store.cell 21 2 = { dist := some 25, next := some 3 } ∧
    t.store.cell 21 3 = { dist := some 0, next := none } ∧ t.routes.col 21 = .stale ∧
    t.routes.engine = some { column := 21 } ∧ t.routes.queue = [] := by
  decide +kernel

/-- R47, R59: a look-up of a cell whose flag stands answers DAMAGED; the cell and the one whose chain passes its node are
withdrawn, the target's stays, and the column is STALE. -/
theorem test_lookUpRoute_damaged :
    let s := withDamage (.cell 21 1) (after .computationCompletes fourNodes)
    let c : Instr := .lookUpRoute (.fields { target := 21, node := 1 })
    let t := after c s
    reply c s = some (.damaged, [9#8, 21#8, 1#8]) ∧ t.store.isDamaged (.cell 21 1) = false ∧ t.store.cell 21 1 = {} ∧
    t.store.cell 21 0 = {} ∧ t.store.cell 21 3 = { dist := some 0, next := none } ∧ t.routes.col 21 = .stale := by
  decide +kernel

/-- R34, R55, log 17: a target moved while its column is in flight: the engine takes the column that waits, and the moved one
waits. -/
theorem test_putTarget_abandons :
    let t := after (.putTarget (.fields { index := 39, rev := none, node := 0, phrase := 5, kind := 1 }))
      (withEngine { column := 39, overtaken := true, read := [383] }
        { busy with routes := { busy.routes with queue := [{ column := 16, order := 0 }] } })
    t.routes.engine = some { column := 16 } ∧ t.routes.queue.map QueuedCol.column = [39] ∧ t.routes.col 39 = .stale := by
  decide +kernel

/-- R6, R7, R111: GET STATION finds a double-bit word: DAMAGED with kind 3 and index 15, the station UNSAFE, STORE and STATION
pending. -/
theorem test_getStation_damage :
    let c : Instr := .getStation (.fields 15)
    let s := withErrors [((Place.slot .station 15).words.headD 0, .double)] busy
    let t := after c s
    reply c s = some (.damaged, [3#8, 0#8, 15#8]) ∧ (t.muster.live 15).state = .notSafe ∧ t.isPending .store = true ∧
    t.isPending .station = true ∧ t.store.rev .station 15 = 2 := by decide +kernel

/-- R159: GET SCREEN finds a double-bit word: the screen is paused. -/
theorem test_getScreen_damage :
    let s := withErrors [((Place.slot .screen 47).words.headD 0, .double)]
      { busy with scr := { busy.scr with sendQueue := [47, 0] } }
    let t := after (.getScreen (.fields 47)) s
    (t.scr.link 47).paused = true ∧ t.scr.sendQueue = [0] ∧ t.store.alert = true := by decide +kernel

/-- R127: a report that differs on a DAMAGED record is copied and listed, and not written. -/
theorem test_status_damaged :
    let s := withDamage (.slot .cabin 511) { busy with tag := { busy.tag with transfer := some (.statusPoll 511) } }
    let t := after (.status 511 1) s
    (t.cabinTable.summary 511).map Summary.service = some .privacy ∧
    t.cabinTable.service = [{ cabin := 511, service := .privacy }] ∧ t.store.rev .cabin 511 = s.store.rev .cabin 511 ∧
    t.store.cabins = s.store.cabins := by decide +kernel

/-- R94, R117: a station put with lamp line 0 takes that line, which then holds the pattern of STANDBY. -/
theorem test_putStation_lamp :
    let t := after (.putStation (.fields { goodPutStation with lamp := some 0 }))
      { busy with muster := { busy.muster with lamps := [(0, { onCount := 8, offCount := 8 })] } }
    t.muster.lamp 0 = { owner := some 0, fresh := true } := by decide +kernel

/-- Chapter 4, The End of the Range: ADVANCE 180 from minute 143,860 stands at the limit with second 5; RETARD is then refused. -/
theorem test_shiftClock_limit :
    let s := atTime (.running { day := 99, minute := 1300, second := 5 }) State.reset
    let t := after (.shiftClock (.fields { direction := 0, amount := 180 })) s
    t.time.clock = .atLimit { day := 99, minute := 1439, second := 5 } ∧ t.isPending .clock = true ∧
    (reply (.shiftClock (.fields { direction := 1, amount := 15 })) t).map Prod.fst = some .mode ∧
    (after .tick1Hz (due1 t)).time.clock = t.time.clock := by decide +kernel

/-- Chapter 4, The Overnight Hour: RETARD 60 at minute 8,760 keeps the second. -/
theorem test_shiftClock_retard :
    (after (.shiftClock (.fields { direction := 1, amount := 60 }))
      (atTime (.running { day := 6, minute := 120, second := 17 }) State.reset)).time.clock =
      .running { day := 6, minute := 60, second := 17 } := by decide +kernel

/-- R66: the last second of day 0 carries into day 1, at the 1 Hz tick that is due and at no other time (R63, log 35). -/
theorem test_tick1Hz_carries :
    let s := atTime (.running { day := 0, minute := 1439, second := 59 }) State.reset
    (after .tick1Hz (due1 s)).time.clock = .running { day := 1, minute := 0, second := 0 } ∧ after .tick1Hz s = s := by
  decide +kernel

/-- R63: the divider's 64 Hz periods 3 to 4 make a 16 Hz tick due, and periods 63 to 64 a 1 Hz tick too. -/
theorem test_tick64Hz_due :
    let at' (n : Nat) : State := { State.reset with time := { refCount := 512 * n } }
    let ticks (n : Nat) := let t := (after (.tick64Hz 0#64 false) (at' n)).time; (t.divider, t.due16, t.due1)
    ticks 2 = (1536, false, false) ∧ ticks 3 = (2048, true, false) ∧ ticks 63 = (0, true, true) := by decide +kernel

/-- Chapter 5, The Evening Show: at 5,490 the entry is SCHEDULED, handle 0 with revision 1 here; at 5,505 it is SOON. -/
theorem test_addEntry :
    let s := { busy with time := { busy.time with clock := .running { day := 3, minute := 1170, second := 0 } } }
    let a : AddEntry := { goodAddEntry with venue := some 16, start := 5520, duration := 90, lead := 15, highlight := 1 }
    let t := after (.addEntry (.fields a)) s
    reply (.addEntry (.fields a)) s = some (.ok, [0#8, 1#8, 0#8, 90#8, 15#8]) ∧
    (t.prog.row 0).map ScheduleRow.state = some .scheduled ∧ t.graph.venueUses 16 = 2 ∧
    ((t.prog.row 0).map fun r => (r.evaluate 5505).state) = some .soon := by decide +kernel

/-- R80: a duration below 5 and a lead above 60 are clamped and answered ADJUSTED. -/
theorem test_addEntry_adjusted :
    (reply (.addEntry (.fields { goodAddEntry with duration := 4, lead := 61 })) busy) =
      some (.adjusted, [0#8, 1#8, 0#8, 5#8, 60#8]) := by decide +kernel

/-- Chapter 6, One Doorway: a passage inwards, a balk, and both beams clearing at once from BOTH-OUT. -/
theorem test_decoder_doorway :
    DecoderState.idle.next (some true) none = (.outer, none) ∧ DecoderState.outer.next none (some true) = (.bothIn, none) ∧
    DecoderState.bothIn.next (some false) none = (.clearingIn, none) ∧
    DecoderState.clearingIn.next none (some false) = (.idle, some .inward) ∧
    DecoderState.outer.next (some false) none = (.idle, none) ∧
    DecoderState.bothOut.next (some false) (some false) = (.muddled, none) := by decide

/-- Chapter 6, Station C Fills: capacity 120, near-full 90: 107 leaves OPEN, 108 is NEAR FULL, 120 FULL. -/
theorem test_threshold :
    let c : StationSettings := { capacity := 120, nearFull := 90, overflow := some 3, lamp := some 2 }
    threshold c 107 = .taking ∧ threshold c 108 = .nearFull ∧ threshold c 119 = .nearFull ∧ threshold c 120 = .full := by
  decide

/-- R104: an exit at count 0 raises the unmatched-exit count instead. -/
theorem test_takenChange_unmatched :
    let s : State := { inDrill busy with muster := { (inDrill busy).muster with
      beams := [(62, { blocked := true, hold := 2 })], decoders := [(31, { state := .clearingOut })] } }
    let l := (after (.takenChange 31 false false) s).muster.live 15
    l.head = 0 ∧ l.unmatched = 1 := by decide +kernel

/-- R105: a count above 1,999 is taken as 1,999, ADJUSTED, and fills the station; its lamp line is steady on at the next
16 Hz tick (R117). -/
theorem test_setHeadCount_adjusted :
    let s : State := { inDrill busy with muster := { (inDrill busy).muster with stations := [(15, { state := .taking })] } }
    let c := Instr.setHeadCount (.fields { station := 15, count := 2000 })
    reply c s = some (.adjusted, [0x07#8, 0xCF#8, 3#8]) ∧ 
      (after .tick16Hz (due16 (after c s))).lampLine 15 = true := by decide +kernel

/-- R109, R107: MARK UNSAFE sets the state in NORMAL too, with the STATION notice. -/
theorem test_markUnsafe :
    let t := after (.markUnsafe (.fields 15)) busy
    (t.muster.live 15).state = .notSafe ∧ t.isPending .station = true := by decide +kernel

/-- Chapter 7, A Button Press: order 2, SET SERVICE and then the tag's report, which is listed. -/
theorem test_status_button :
    let s : State := after (.setService (.fields { index := 511, rev := some 255, service := 2 })) busy
    let t := after (.status 511 1) { s with tag := { s.tag with transfer := some (.statusPoll 511) } }
    s.store.rev .cabin 511 = 0 ∧ t.store.rev .cabin 511 = 1 ∧ (t.store.cabinRec 511).service = .privacy ∧
    t.cabinTable.service = [{ cabin := 511, service := .privacy }] ∧ t.isPending .service = true := by decide +kernel

/-- R130: the oldest entries are answered and leave the list. -/
theorem test_collectServiceChanges :
    let s : State := { busy with cabinTable := { busy.cabinTable with
      service := [{ cabin := 40, service := .makeUp }, { cabin := 311, service := .privacy }] } }
    reply .collectServiceChanges s = some (.ok, [2#8, 0#8, 40#8, 2#8, 1#8, 55#8, 1#8, 0#8, 0#8]) ∧
    (after .collectServiceChanges s).cabinTable.service = [] := by decide +kernel

/-- Chapter 8: END MUSTER while the filter is ASSERTED is refused, with MUSTER and ASSERTED. -/
theorem test_endMuster_asserted :
    let s : State := { inMuster busy with mode := { (inMuster busy).mode with filter := { state := .asserted, hold := 0 } } }
    reply .endMuster s = some (.mode, [2#8, 2#8]) := by decide +kernel

/-- R135: the 33rd asserted sample in a row is taken; a sample equal to the taken level sets the hold count to 0. -/
theorem test_alarm_filter :
    ({ state := .released, hold := 32 } : AlarmFilter).sample true = { state := .asserted, hold := 0 } ∧
    ({ state := .released, hold := 31 } : AlarmFilter).sample true = { state := .released, hold := 32 } ∧
    ({ state := .released, hold := 9 } : AlarmFilter).sample false = { state := .released, hold := 0 } := by decide

/-- Chapter 9: the screen's content; the version goes up by one with the content. -/
theorem test_putScreen_composes :
    let s := atTime (.running { day := 0, minute := 1130, second := 0 }) (after .computationCompletes fourNodes)
    let t := after (.putScreen (.fields { goodPutScreen with index := 4, bank := 1, targets := [21], filter := 2 })) s
    t.composer.screen 4 = { version := 1, content :=
      [[.time 1130], [.arrow .ahead, .minutes 1, .phrase 4 (.rom 1)]] } ∧ t.scr.sendQueue = [4] := by decide +kernel

/-- Section 12.5, One Target Line: nine bytes on the command port, 21 on the panel link with the texts loaded. -/
theorem test_lineBytes :
    let line (min : PhraseText) : List Item := [.phrase 40 (.stored [0x54#16, 0x68#16, 0x65#16, 0x61#16, 0x74#16, 0x72#16, 0x65#16]),
      .arrow .ahead, .minutes 1, .phrase 4 min]
    lineBytes false (line (.stored [])) = [4#8, 1#8, 40#8, 5#8, 0#8, 6#8, 1#8, 1#8, 4#8] ∧
    (lineBytes true (line (.stored [0x4D#16, 0x49#16, 0x4E#16]))).length = 21 := by decide

/-- R164: the third send in a row without an answer makes the screen SILENT, with the PANEL notice. -/
theorem test_sendNoAnswer_third :
    let s : State := { busy with scr := { busy.scr with
      links := [(47, { presence := .kiosk, attempts := 2 })], transfer := some (.send 47 9), sendQueue := [47] } }
    let t := after .sendNoAnswer s
    t.scr.silent = [47] ∧ t.scr.sendQueue = [] ∧ (t.scr.link 47).silent = true ∧ t.isPending .panel = true := by
  decide +kernel

/-- R164, R196: an ACK with another version counts as no answer. -/
theorem test_ack_otherVersion :
    let s : State := { busy with scr := { busy.scr with transfer := some (.send 47 9), sendQueue := [47] } }
    ((after (.ack 47 8) s).scr.link 47).attempts = 1 ∧ (after (.ack 47 8) s).scr.sendQueue = [47] := by decide +kernel

/-- R171: BUSY hands a cabin behind the walk back to the sweep list. -/
theorem test_busy_sweepList :
    let s : State := { inDrill busy with tag := { (inDrill busy).tag with
      sweep := some { walk := 64, list := [] }, transfer := some (.send 63 1), links := [(63, { dirty := true })] } }
    (after (.busy 63) s).tag.sweep = some { walk := 64, list := [63] } ∧ (after (.busy 63) s).tag.routine = [63] := by
  decide +kernel

/-- R172: 6 s after ACCEPTED without a DONE the tag is FAULT. -/
theorem test_refreshTimeout :
    let s : State := { busy with tag := { busy.tag with
      links := [(511, { dirty := true, refresh := some { version := 1, acceptedAt := 0, pollAt := 0 } })] } }
    let t := after (.refreshTimeout 511) s
    (t.tag.link 511).service = .fault ∧ (t.tag.link 511).refresh = none ∧ t.isPending .panel = true := by decide +kernel

/-- Chapter 1, A Sweep That Finds Damage: the read of cabin 511's word 19. -/
theorem test_sweepRead_damage :
    let s := withErrors [(4136 + 511 * 28 + 19, .double)] (withSweep { position := .slot .cabin 311, corrections := 1 } busy)
    let t := after .sweepRead s
    t.store.isDamaged (.slot .cabin 511) = true ∧ t.store.firstDamaged = some (.slot .cabin 511) ∧ t.storeAlertLow = true ∧
    t.store.sweep = some { position := .slot .screen 0, corrections := 1, damaged := 1 } := by decide +kernel

/-- R17: two words of one slot in error are each read once by the rest of the sweep: two corrections, in the count and the tally. -/
theorem test_sweepEnds_once :
    let s := withErrors [(1064 + 255 * 12, .single), (1064 + 255 * 12 + 1, .single)] (withSweep {} busy)
    (after .sweepEnds s).store.corrected = 2 ∧ (after .sweepEnds s).store.lastSweep.map LastSweep.corrections = some 2 := by
  decide +kernel

/-- R5: a read of a single-bit word counts one correction and leaves it to be written back. -/
theorem test_getNode_corrects :
    let s := withErrors [(191, .single)] busy
    let t := after (.getNode (.fields 191)) s
    t.store.corrected = 1 ∧ reply (.getNode (.fields 191)) s = some (.ok, [23#8, 255#8]) ∧
    (after (.correctionWriteBack 191) t).store.ramErrors = [] := by decide +kernel

/-- R20: the damaged places from the one named onward, in store order. -/
theorem test_listDamage :
    let s := withDamage (.slot .cabin 511) (withDamage (.slot .segment 383) busy)
    reply (.listDamage (.fields { kind := 1, index := 0 })) s =
      some (.ok, [2#8, 1#8, 1#8, 127#8, 6#8, 1#8, 255#8, 0#8]) := by decide +kernel

/-- R188: a pin reset leaves UNSET, and READ CLOCK answers no value. -/
theorem test_pinReset :
    reply .readClock (after .pinReset (atTime (.running { day := 1, minute := 2, second := 3 }) busy)) = some (.ok, [0#8, 0#8]) := by
  decide +kernel

/-- R160, R161: a screen never put is ABSENT, not damaged, version 0, blank. -/
theorem test_readScreenContent_blank :
    reply (.readScreenContent (.fields { index := 0, first := none })) State.reset =
      some (.ok, [1#8, 0#8, 0#8, 0#8, 0#8, 0#8]) := by decide +kernel
end Sys2Proof.Tests
end

section
/-! SUPPORT. The condition states of an entry (R76), the order they stand in (R77), and the evaluation with no ship clock (R64). -/

namespace Sys2Proof.Machine

/-! ### The condition state, a rule for each state (R76). -/

theorem conditionState_eq_scheduled_iff (n start finish lead : Nat) :
    conditionState n start finish lead = .scheduled ↔ n + lead < start := by
  unfold conditionState
  repeat' split
  all_goals simp only [reduceCtorEq, true_iff, false_iff]
  all_goals omega

theorem conditionState_eq_soon_iff (n start finish lead : Nat) :
    conditionState n start finish lead = .soon ↔ start ≤ n + lead ∧ n < start := by
  unfold conditionState
  repeat' split
  all_goals simp only [reduceCtorEq, true_iff, false_iff]
  all_goals omega

theorem conditionState_eq_running_iff (n start finish lead : Nat) :
    conditionState n start finish lead = .running ↔ start ≤ n ∧ n < finish := by
  unfold conditionState
  repeat' split
  all_goals simp only [reduceCtorEq, true_iff, false_iff]
  all_goals omega

/-- ENDED asks for the start as well as the end, as the end may lie before the start here. -/
theorem conditionState_eq_ended_iff (n start finish lead : Nat) :
    conditionState n start finish lead = .ended ↔ start ≤ n ∧ finish ≤ n := by
  unfold conditionState
  repeat' split
  all_goals simp only [reduceCtorEq, true_iff, false_iff]
  all_goals omega

theorem conditionState_ne_cancelled (n start finish lead : Nat) : conditionState n start finish lead ≠ .cancelled := by
  unfold conditionState
  repeat' split
  all_goals exact EntryState.noConfusion

/-! ### The order of the states (R76, R77). -/

/-- The rank of a condition state is its place in R76's list. -/
theorem idxOf_eq_rank {a : EntryState} (ha : a ≠ .cancelled) :
    [EntryState.scheduled, .soon, .running, .ended].idxOf a = a.rank := by
  cases a with
  | cancelled => exact absurd rfl ha
  | scheduled | soon | running | ended => rfl

/-- The later state is one of the two, and its rank is not below the other's. -/
theorem laterState_cases (a b : EntryState) :
    (laterState a b = b ∧ a.rank ≤ b.rank) ∨ (laterState a b = a ∧ b.rank ≤ a.rank) := by
  by_cases h : a.rank < b.rank
  · exact .inl ⟨if_pos h, Nat.le_of_lt h⟩
  · exact .inr ⟨if_neg h, Nat.not_lt.mp h⟩

/-! ### What the evaluation leaves alone, and the value it takes (R64, R77). -/

/-- CANCELLED is kept whatever the time. -/
theorem ScheduleRow.evaluate_of_cancelled (n : Nat) {r : ScheduleRow} (h : r.state = .cancelled) : r.evaluate n = r :=
  if_pos (.inl h)

theorem State.now_of_value {s : State} {t : ShipTime} (h : s.time.clock = .running t ∨ s.time.clock = .atLimit t) :
    s.now = some (t.day * 1440 + t.minute) := by
  rcases h with h | h <;> simp only [State.now, h, Clock.value, Option.map_some, ShipTime.voyage]

theorem State.now_of_unset {s : State} (h : s.time.clock = .unset) : s.now = none := by
  simp only [State.now, h, Clock.value, Option.map_none]

theorem Ev.programmeClock_of_now_none (bySet : Bool) {e : Ev} (h : e.now = none) : e.programmeClock bySet = e := by
  simp only [Ev.programmeClock, h]

end Sys2Proof.Machine

namespace Sys2Proof
open Sys2Proof.Machine

/-- Settles O40: each clause is a rule of the programme above; the signed forms of R76 are the unsigned ones with the lead
moved across. -/
theorem conditionStatesFollowNow : Obligations.ConditionStatesFollowNow := by
  refine ⟨?states, ?order, fun n r => r.evaluate_of_cancelled n, fun _ _ => State.now_of_value, ?unset⟩
  case states =>
    intro n start finish lead hlt N S E L c
    have scheduled := conditionState_eq_scheduled_iff n start finish lead
    have soon := conditionState_eq_soon_iff n start finish lead
    have running := conditionState_eq_running_iff n start finish lead
    have ended := conditionState_eq_ended_iff n start finish lead
    refine ⟨scheduled.trans ?_, soon.trans ?_, running.trans ?_, ended.trans ?_,
      conditionState_ne_cancelled n start finish lead, ?early, ?noLead⟩
    case early => exact fun _ h => absurd (scheduled.mp h) (by omega)
    case noLead => exact fun _ h => absurd (soon.mp h) (by omega)
    all_goals omega
  case order =>
    intro a b ha hb order
    rw [idxOf_eq_rank ha, idxOf_eq_rank hb]
    exact laterState_cases a b
  case unset =>
    intro bySet e h
    have hnow : e.now = none := State.now_of_unset h
    exact ⟨hnow, e.programmeClock_of_now_none bySet hnow⟩

end Sys2Proof
end

section
/-! SUPPORT. The pending flag of each source and the ATTN line (R184, R185), and the port through a RESTART (R189). -/

namespace Sys2Proof.Machine

/-! ### The bits of a set of sources (R184, R193). -/

theorem Notice.bit_lt (n : Notice) : n.bit < 8 := by cases n <;> decide

theorem Notice.exists_bit_eq {i : Nat} (h : i < 8) : ∃ n : Notice, n.bit = i :=
  match i, h with
  | 0, _ => ⟨.mode, rfl⟩
  | 1, _ => ⟨.station, rfl⟩
  | 2, _ => ⟨.service, rfl⟩
  | 3, _ => ⟨.panel, rfl⟩
  | 4, _ => ⟨.store, rfl⟩
  | 5, _ => ⟨.routes, rfl⟩
  | 6, _ => ⟨.clock, rfl⟩
  | 7, _ => ⟨.entrance, rfl⟩

theorem Notice.getLsbD_service_flag (n : Notice) : Notice.service.flag.getLsbD n.bit = decide (n = .service) := by
  cases n <;> rfl

/-- A set of sources is empty where it holds the bit of no source. -/
theorem ne_zero_iff_exists_notice (m : BitVec 8) : m ≠ 0#8 ↔ ∃ n : Notice, m.getLsbD n.bit = true := by
  constructor
  · intro hne
    refine Classical.byContradiction fun hnone => hne (BitVec.eq_of_getLsbD_eq fun i hi => ?_)
    obtain ⟨n, rfl⟩ := Notice.exists_bit_eq hi
    rw [BitVec.getLsbD_zero, Bool.eq_false_iff]
    exact fun hn => hnone ⟨n, hn⟩
  · rintro ⟨n, hn⟩ rfl
    rw [BitVec.getLsbD_zero] at hn
    exact Bool.false_ne_true hn

/-! ### What is pending, and ATTN (R184, R185). -/

/-- SERVICE has no latch: its bit follows the list, whatever the latched set holds there. -/
theorem State.getLsbD_pendingFlags (s : State) (n : Notice) : s.pendingFlags.getLsbD n.bit =
    if n = .service then !s.cabinTable.service.isEmpty else s.port.latched.getLsbD n.bit := by
  unfold State.pendingFlags
  cases s.cabinTable.service.isEmpty <;> by_cases hn : n = .service <;>
    simp only [hn, n.bit_lt, Notice.getLsbD_service_flag, BitVec.getLsbD_or, BitVec.getLsbD_and, BitVec.getLsbD_not,
      BitVec.or_zero, Bool.false_eq_true, ↓reduceIte, decide_true, decide_false, Bool.not_true, Bool.not_false,
      Bool.and_false, Bool.and_true, Bool.or_true, Bool.or_false]

theorem State.isPending_service (s : State) : s.isPending .service = !s.cabinTable.service.isEmpty :=
  (s.getLsbD_pendingFlags .service).trans (if_pos rfl)

theorem State.isPending_of_ne_service (s : State) {n : Notice} (hn : n ≠ .service) :
    s.isPending n = s.port.latched.getLsbD n.bit :=
  (s.getLsbD_pendingFlags n).trans (if_neg hn)

theorem State.attn_iff (s : State) :
    s.attn = true ↔ s.port.master = true ∧ ∃ n : Notice, s.port.enables.getLsbD n.bit = true ∧ s.isPending n = true := by
  simp only [State.attn, State.isPending, Bool.and_eq_true, decide_eq_true_eq, ne_zero_iff_exists_notice,
    BitVec.getLsbD_and, and_comm]

/-- With the master enable clear ATTN is released. -/
theorem State.attn_of_master_clear {s : State} (h : s.port.master = false) : s.attn = false := by
  rw [State.attn, h, Bool.false_and]

/-! ### The port through a RESTART (R189): a notice may be raised, and nothing else changes but the cause of the reset. -/

/-- An event keeps its port but for notices raised. -/
def Ev.PortKept (e e' : Ev) : Prop := e.port.Kept e'.port

theorem Ev.PortKept.refl (e : Ev) : e.PortKept e := Port.Kept.refl _

theorem Ev.PortKept.trans {a b c : Ev} (h : a.PortKept b) (g : b.PortKept c) : a.PortKept c := Port.Kept.trans h g

theorem Ev.Kept.portKept {e e' : Ev} (h : e.Kept e') : e.PortKept e' := h.port

theorem Ev.portKept_notice (n : Notice) (e : Ev) : e.PortKept (e.notice n) := Port.kept_raise n _
theorem Ev.portKept_onStore (f : Store → Store) (e : Ev) : e.PortKept (e.onStore f) := .refl e
theorem Ev.portKept_onRoutes (f : Routes → Routes) (e : Ev) : e.PortKept (e.onRoutes f) := .refl e
theorem Ev.portKept_onMuster (f : Muster → Muster) (e : Ev) : e.PortKept (e.onMuster f) := .refl e
theorem Ev.portKept_onCabins (f : CabinTable → CabinTable) (e : Ev) : e.PortKept (e.onCabins f) := .refl e
theorem Ev.portKept_onScr (f : ScreenChannel → ScreenChannel) (e : Ev) : e.PortKept (e.onScr f) := .refl e
theorem Ev.portKept_onTag (f : TagChannel → TagChannel) (e : Ev) : e.PortKept (e.onTag f) := .refl e

theorem Ev.portKept_foldl {α : Type} {f : Ev → α → Ev} (hf : ∀ (e : Ev) (a : α), e.PortKept (f e a)) (as : List α) (e : Ev) :
    e.PortKept (as.foldl f e) := by
  induction as generalizing e with
  | nil => exact .refl e
  | cons a rest ih => exact (hf e a).trans (ih _)

theorem Ev.portKept_changeState (n : Nat) (new : StationState) (e : Ev) : e.PortKept (e.changeState n new) := by
  simp only [Ev.changeState]
  split
  · exact .refl e
  · exact (Ev.portKept_onMuster _ e).trans (Ev.portKept_notice .station _)

theorem Ev.portKept_standDown (e : Ev) : e.PortKept e.standDown := by
  refine (Ev.portKept_foldl (fun e n => ?_) _ e).trans (Ev.kept_resolve _).portKept
  split
  · exact .refl e
  · exact Ev.portKept_changeState n .standby e

theorem Ev.portKept_musterRestart (e : Ev) : e.PortKept e.musterRestart := by
  simp only [Ev.musterRestart]
  exact ((Ev.portKept_onMuster _ e).trans (Ev.portKept_standDown _)).trans (Ev.portKept_onMuster _ _)

theorem Ev.portKept_routesModeChange (old : Mode) (e : Ev) : e.PortKept (e.routesModeChange old) := by
  have hread : e.PortKept ((e.judgedByChange old e.mode.mode).foldl Ev.readAvailability e) :=
    Ev.portKept_foldl (fun e n => (Ev.kept_read (.slot .segment n) [slotWord .segment n 1] e).portKept) _ e
  simp only [Ev.routesModeChange]
  exact (((hread.trans (Ev.kept_withdraw _ _ _).portKept).trans (Ev.portKept_onRoutes _ _)).trans
    (Ev.kept_markAll _).portKept).trans (Ev.portKept_onRoutes _ _)

theorem Ev.portKept_routesRestart (e : Ev) : e.PortKept e.routesRestart :=
  (Ev.portKept_onRoutes _ e).trans (Ev.kept_markAll _).portKept

theorem Ev.portKept_writeMode (new : Mode) (cause : ModeCause) (e : Ev) : e.PortKept (e.writeMode new cause) :=
  Port.kept_raise .mode _

theorem Ev.portKept_restartMode (e : Ev) : e.PortKept e.restartMode := by
  refine Ev.PortKept.trans ?_ (Ev.portKept_routesRestart _)
  split
  · exact (Ev.portKept_writeMode _ _ e).trans (Ev.portKept_routesModeChange .drill _)
  · exact .refl e

theorem Ev.portKept_screenRestart (e : Ev) : e.PortKept e.screenRestart := by
  simp only [Ev.screenRestart]
  exact ((Ev.portKept_onScr _ e).trans (Ev.portKept_foldl (fun e n => (Ev.kept_joinSend n e).portKept) _ _)).trans
    (Ev.portKept_onScr _ _)

theorem Ev.portKept_tagRestart (e : Ev) : e.PortKept e.tagRestart :=
  (Ev.portKept_onTag _ e).trans (Ev.portKept_onTag _ _)

/-- An event whose port records RESTART as the cause of the reset. -/
def Ev.causedByRestart (e : Ev) : Ev := { e with port := { e.port with resetCause := .restart } }

theorem Ev.kept_restart_port (e : Ev) : Port.Kept { e.port with resetCause := .restart } e.restart.port := by
  have hmode := (Ev.portKept_restartMode e.causedByRestart).trans
    (Ev.portKept_onStore (fun st => { st with sweep := none }) _)
  have hmuster := (hmode.trans (Ev.portKept_musterRestart _)).trans
    (Ev.portKept_onCabins (fun c => { c with service := [] }) _)
  have hchannels := (hmuster.trans (Ev.portKept_screenRestart _)).trans (Ev.portKept_tagRestart _)
  exact (hchannels.trans (Ev.kept_tell .everyPanel _).portKept).trans (Ev.settles_settle _).kept.portKept

/-- An answer changes neither enable. -/
theorem State.Kept.enables_of_answer {a b : State} {c : Byte} {x : Status} {p : List Byte} (h : (a.answer c x p).Kept b) :
    b.port.enables = a.port.enables ∧ b.port.master = a.port.master :=
  ⟨h.port.enables, h.port.master⟩

/-- A RESTART, made whole or refused, keeps the enables and the master enable (R189). -/
theorem execRestart_keeps_enables {s t : State} (h : execRestart s = .next t) :
    t.port.enables = s.port.enables ∧ t.port.master = s.port.master := by
  obtain rfl := Host.Outcome.next.inj h
  obtain ⟨c, -, -, -, hrefused⟩ | ⟨-, hwhole⟩ := request_cases s 0x94 [s.notInMuster] fun e =>
    e.restart.ok 0x94 (num1 e.restart.mode.mode.code)
  · simp only [hrefused, State.answer_port, and_self]
  · obtain ⟨-, -, henables, hmaster, -⟩ := Ev.kept_restart_port (Ev.start s)
    have hfinish := Ev.kept_finish ((Ev.start s).restart.ok 0x94 (num1 (Ev.start s).restart.mode.mode.code))
    rw [Ev.ok_toState] at hfinish
    obtain ⟨henablesEnd, hmasterEnd⟩ := hfinish.enables_of_answer
    rw [hwhole]
    exact ⟨henablesEnd.trans henables, hmasterEnd.trans hmaster⟩

end Sys2Proof.Machine

namespace Sys2Proof
open Sys2Proof.Machine

/-- Settles O19: the pending flag of each source and ATTN by their rules above, the two full resets by the state they leave,
and RESTART by what it keeps of the port. -/
theorem attnFollowsEnabledPendingSources : Obligations.AttnFollowsEnabledPendingSources := by
  intro s
  refine ⟨s.attnHigh_eq_false, ?fullReset, fun _ => execRestart_keeps_enables, s.attn_iff, ?service, ?latched⟩
  case fullReset =>
    rintro t (h | h)
    all_goals
      obtain rfl := Host.Outcome.next.inj h
      exact ⟨State.attn_of_master_clear rfl, rfl, rfl⟩
  case service => rw [s.isPending_service, Bool.not_eq_true', List.isEmpty_eq_false_iff]
  case latched => exact fun n hn => by rw [s.isPending_of_ne_service hn]

end Sys2Proof
end
